-- ==== Sys2Proof/Word.lean ====
section
/-! DEFINITION. The word types of WS2801-BBE: the widths that spec/10_state.md R10 and spec/30_encoding.md
R71, R80, R82 give, and the three numbers the source fixes (R3, R4). -/

namespace Sys2Proof

/-- One byte of a frame or of a payload. -/
abbrev Byte := BitVec 8

/-- A 32-bit unsigned number: `arg`, `len`, `num_leds`, NLED, BYP, TXLEN, the `value` of a response. -/
abbrev Word := BitVec 32

/-- The header of a request (R70, R71). -/
abbrev Header := BitVec 36

/-- The internal word of TRANSMIT, `tx_start` in bit 0 and `tx_len` above it (R82). -/
abbrev StrobeWord := BitVec 33

/-- The phase register PH (R22, R80). -/
abbrev Phase := BitVec 3

/-- The identity of a caller (R30). The set of ports is a parameter of the spec and may be infinite; here it is
the natural numbers. DESIGN CHOICE, safe: log 2. -/
abbrev Port := Nat

/-- `COLOR_BYTES` (R4). -/
abbrev colorBytes : Nat := 3

/-- `DEFAULT_LEDS`: the LED count when OPEN brings none (R3). -/
def defaultLeds : Word := 20

end Sys2Proof
end

