-- ==== Sys2Proof/Syntax.lean ====
section
/-! DEFINITION. The instructions of WS2801-BBE: one constructor for each row of spec/opcode_table.json (five
commands of the request port, TRANSMIT, seven phases), and the words that encode them. -/

namespace Sys2Proof

/-- A request record (R70): the header and the payload. -/
structure Request where
  hdr  : Header
  data : List Byte
  deriving DecidableEq, Repr

/-- The words an instruction is read from: a request at a port (R70), the internal strobe (R82), the phase
register (R80). The three are different wires: one number may mean different things on different ones. -/
inductive Words where
  | request (r : Request)
  | strobe (w : StrobeWord)
  | phase (w : Phase)
  deriving DecidableEq, Repr

/-- The instructions. The operands are the fields a command uses; fields it ignores (R71) are not operands. -/
inductive Instr where
  /-- OPEN (R165): `num_leds`, or `none` when `has_cfg = 0`. -/
  | openDev (numLeds : Option Word)
  /-- WRITE (R130): `len` and the candidate. -/
  | write (len : Word) (data : List Byte)
  /-- READ (R150). -/
  | read
  /-- QUERY (R155). -/
  | query
  /-- CLOSE (R169). -/
  | close
  /-- TRANSMIT (R82, R101): `tx_len`. -/
  | transmit (txLen : Word)
  /-- Phase 0 (R102). -/
  | idle
  /-- Phase 1 (R103). -/
  | clklo
  /-- Phase 2 (R104). -/
  | dset
  /-- Phase 3 (R105). -/
  | clkhi
  /-- Phase 4 (R106). -/
  | hold
  /-- Phase 5 (R107). -/
  | latch
  /-- Phase 6 (R108). -/
  | lwait
  deriving DecidableEq, Repr

end Sys2Proof
end

