-- ==== Sys2Proof/WellFormed.lean ====
section
/-! DEFINITION. Which instructions are well formed. R72 is the only rule that ties operands together: a WRITE's
payload has exactly `len` bytes. -/

namespace Sys2Proof

/-- A WRITE carries exactly `len` bytes (R72); every other instruction is well formed whatever its operands. -/
def Instr.wf (i : Instr) : Bool :=
  match i with
  | .write len data => data.length == len.toNat
  | .openDev _ => true
  | .read => true
  | .query => true
  | .close => true
  | .transmit _ => true
  | .idle => true
  | .clklo => true
  | .dset => true
  | .clkhi => true
  | .hold => true
  | .latch => true
  | .lwait => true

/-- The instruction is a command of the request port (R75). -/
def Instr.isCommand (i : Instr) : Bool :=
  match i with
  | .openDev _ => true
  | .write _ _ => true
  | .read => true
  | .query => true
  | .close => true
  | .transmit _ => false
  | .idle => false
  | .clklo => false
  | .dset => false
  | .clkhi => false
  | .hold => false
  | .latch => false
  | .lwait => false

/-- The instruction is a phase of the encoder (R80). -/
def Instr.isPhase (i : Instr) : Bool :=
  match i with
  | .openDev _ => false
  | .write _ _ => false
  | .read => false
  | .query => false
  | .close => false
  | .transmit _ => false
  | .idle => true
  | .clklo => true
  | .dset => true
  | .clkhi => true
  | .hold => true
  | .latch => true
  | .lwait => true

end Sys2Proof
end

