-- ==== Sys2Proof/Decode.lean ====
section
/-! DEFINITION. Decoding, total on every word of the three channels, and encoding. From spec/30_encoding.md R70 to
R76 (request records), R82 (the strobe), R80 and R81 (the phase register). -/

namespace Sys2Proof

/-- Why a word encodes no instruction. -/
inductive Reject where
  /-- Request opcode 5, 6 or 7 (R76). -/
  | reservedOpcode (op : BitVec 3)
  /-- The payload is not `arg` bytes for a WRITE, or not empty for another command (R70, R72). -/
  | payloadLength
  /-- A 33-bit word with `tx_start = 0`: no strobe (R82). -/
  | noStrobe
  /-- PH = 7 (R81). -/
  | phaseSeven
  deriving DecidableEq, Repr

/-! ### The fields of the words -/

/-- `hdr[2:0]` (R71). -/
def headerOp (h : Header) : BitVec 3 := h.extractLsb' 0 3

/-- `hdr[3]` (R71). -/
def headerHasCfg (h : Header) : Bool := h.getLsbD 3

/-- `hdr[35:4]` (R71). -/
def headerArg (h : Header) : Word := h.extractLsb' 4 32

/-- A header from its three fields: `op | has_cfg << 3 | arg << 4` (R71; 95_test_vectors.md). -/
def mkHeader (arg : Word) (hasCfg : Bool) (op : BitVec 3) : Header :=
  BitVec.ofNat 36 (op.toNat + 8 * hasCfg.toNat + 16 * arg.toNat)

/-- `word[0]`, `tx_start` (R82). -/
def strobeStart (w : StrobeWord) : Bool := w.getLsbD 0

/-- `word[32:1]`, `tx_len` (R82). -/
def strobeLen (w : StrobeWord) : Word := w.extractLsb' 1 32

/-- The strobe word that starts a transmit of `n` bytes (R82). -/
def mkStrobe (n : Word) : StrobeWord := BitVec.ofNat 33 (1 + 2 * n.toNat)

/-- The value on the internal word when no strobe stands (R82: `tx_start = 0`). -/
def noStrobe : StrobeWord := 0

/-! ### The decoder -/

/-- A request with no payload decodes to `i`; a payload makes it no record of that command (R70). -/
def decodeBare (i : Instr) (data : List Byte) : Except Reject Instr :=
  match data with
  | [] => .ok i
  | _ :: _ => .error .payloadLength

/-- The command of a request record (R70 to R76). Ignored fields are not looked at (R71). -/
def decodeRequest (r : Request) : Except Reject Instr :=
  match (headerOp r.hdr).toNat with
  | 0 => decodeBare (.openDev (if headerHasCfg r.hdr then some (headerArg r.hdr) else none)) r.data
  | 1 =>
    if r.data.length = (headerArg r.hdr).toNat then .ok (.write (headerArg r.hdr) r.data)
    else .error .payloadLength
  | 2 => decodeBare .read r.data
  | 3 => decodeBare .query r.data
  | 4 => decodeBare .close r.data
  | _ => .error (.reservedOpcode (headerOp r.hdr))

/-- TRANSMIT from the internal word (R82). -/
def decodeStrobe (w : StrobeWord) : Except Reject Instr :=
  if strobeStart w then .ok (.transmit (strobeLen w)) else .error .noStrobe

/-- The phase that PH selects (R80, R81). -/
def decodePhase (w : Phase) : Except Reject Instr :=
  match w.toNat with
  | 0 => .ok .idle
  | 1 => .ok .clklo
  | 2 => .ok .dset
  | 3 => .ok .clkhi
  | 4 => .ok .hold
  | 5 => .ok .latch
  | 6 => .ok .lwait
  | _ => .error .phaseSeven

/-- The decoder of all three channels. -/
def decode (w : Words) : Except Reject Instr :=
  match w with
  | .request r => decodeRequest r
  | .strobe s => decodeStrobe s
  | .phase p => decodePhase p

/-! ### The encoder -/

/-- The request record of OPEN (R73): `has_cfg = 0` and `arg = 0` when there is no configuration value. -/
def encodeOpen (numLeds : Option Word) : Request :=
  match numLeds with
  | some n => { hdr := mkHeader n true 0, data := [] }
  | none => { hdr := mkHeader 0 false 0, data := [] }

/-- A bare request (R74), its unused fields zero. -/
def encodeBare (op : BitVec 3) : Request := { hdr := mkHeader 0 false op, data := [] }

/-- The words of an instruction, its ignored fields zero. -/
def encode (i : Instr) : Words :=
  match i with
  | .openDev n => .request (encodeOpen n)
  | .write len data => .request { hdr := mkHeader len false 1, data := data }
  | .read => .request (encodeBare 2)
  | .query => .request (encodeBare 3)
  | .close => .request (encodeBare 4)
  | .transmit n => .strobe (mkStrobe n)
  | .idle => .phase 0
  | .clklo => .phase 1
  | .dset => .phase 2
  | .clkhi => .phase 3
  | .hold => .phase 4
  | .latch => .phase 5
  | .lwait => .phase 6

/-! ### The table's rows -/

/-- The word of an instruction as one number, the payload left out: what the table's "match" and "mask" are over. -/
def Words.number (w : Words) : Nat :=
  match w with
  | .request r => r.hdr.toNat
  | .strobe s => s.toNat
  | .phase p => p.toNat

/-- "mask" of the instruction's row in spec/opcode_table.json. -/
def tableMask (i : Instr) : Nat :=
  match i with
  | .transmit _ => 1
  | .openDev _ | .write _ _ | .read | .query | .close => 7
  | .idle | .clklo | .dset | .clkhi | .hold | .latch | .lwait => 7

/-- "match" of the instruction's row in spec/opcode_table.json. -/
def tableMatch (i : Instr) : Nat :=
  match i with
  | .openDev _ => 0
  | .write _ _ => 1
  | .read => 2
  | .query => 3
  | .close => 4
  | .transmit _ => 1
  | .idle => 0
  | .clklo => 1
  | .dset => 2
  | .clkhi => 3
  | .hold => 4
  | .latch => 5
  | .lwait => 6

/-- The words of a table row of `nbits` bits whose bits are `w`. The table's rows belong to three channels and
their numbers overlap; the row's width tells them apart: up to 8 bits the phase register, 33 bits the strobe, else
a request header, its payload `arg` zero bytes for a WRITE and empty for the rest. DESIGN CHOICE: log 13. -/
def tableWords (nbits w : Nat) : Words :=
  if nbits ≤ 8 then .phase (BitVec.ofNat 3 w)
  else if nbits = 33 then .strobe (BitVec.ofNat 33 w)
  else
    let h : Header := BitVec.ofNat 36 w
    .request { hdr := h
               data := if headerOp h = 1 then List.replicate (headerArg h).toNat 0 else [] }

/-- A number that fits the channel of its row. -/
def tableWordFits (nbits w : Nat) : Bool :=
  if nbits ≤ 8 then decide (w < 2 ^ 3)
  else if nbits = 33 then decide (w < 2 ^ 33)
  else decide (w < 2 ^ 36)

/-- The instruction the decoder reads from a table row's bits (log 13). -/
def decodeTableWord (nbits w : Nat) : Option Instr :=
  if tableWordFits nbits w then
    match decode (tableWords nbits w) with
    | .ok i => some i
    | .error _ => none
  else none

end Sys2Proof
end

