-- ==== Sys2Proof/Config.lean ====
section
/-! DEFINITION. What an implementation fixes (spec/00_scope.md section 5, R6) and the free values: the values the
spec leaves open, each a constant without a body, so that nothing can be proved of which value it is. -/

namespace Sys2Proof

/-- The parameters of an instance (00_scope.md section 5). `Port` is a type, not a field; `DLY_W` is computed
(`Config.dlyW`). State carries one `Config`, which no step writes, so a statement about every state holds for
every choice of the parameters. DESIGN CHOICE: log 1. -/
structure Config where
  /-- `MAX_LEDS`: capacity of the frame store in LEDs (D12). -/
  maxLeds : Nat
  /-- `TICK_NS`: the tick period in nanoseconds (D3). -/
  tickNs : Nat
  /-- `HOLD_TICKS`: ticks of the clock-high hold (D4). -/
  holdTicks : Nat
  /-- `LATCH_TICKS`: ticks of the latch wait (D4). -/
  latchTicks : Nat
  deriving DecidableEq, Repr

/-- `T_HOLD_MIN_NS` (R6). -/
def Config.holdMinNs : Nat := 1000

/-- `T_LATCH_MIN_NS` (R6). -/
def Config.latchMinNs : Nat := 1000000

/-- The constraints of the parameter table and of R6. -/
def Config.ok (c : Config) : Bool :=
  decide (colorBytes * c.maxLeds < 2 ^ 32) && decide (0 < c.tickNs)
    && decide (1 ≤ c.holdTicks) && decide (1 ≤ c.latchTicks)
    && decide (Config.holdMinNs ≤ c.holdTicks * c.tickNs)
    && decide (Config.latchMinNs ≤ c.latchTicks * c.tickNs)

/-- `DLY_W`: the least width with `2 ^ DLY_W > max HOLD_TICKS LATCH_TICKS` (the parameter table; that it is the
least one is DEDUCED from the reference value 10: log 18). -/
def Config.dlyW (c : Config) : Nat := Nat.log2 (max c.holdTicks c.latchTicks) + 1

/-- The reference values, used by every worked vector of 95_test_vectors.md. -/
def Config.reference : Config where
  maxLeds := 1024
  tickNs := 1000
  holdTicks := 1
  latchTicks := 1000

/-- NLED after CLOSE (R170: "NLED <- unspecified"), the n-th draw. Log 7. -/
opaque Config.freeNled : Nat → Word

/-- The bytes of FB after CLOSE (R170: "FB <- unspecified"), the n-th draw. Log 7. -/
opaque Config.freeFrame : Nat → List Byte

/-- A 32-bit result the spec says never arises: `3 * NLED` or `BYP + 1` beyond 32 bits (R60). Log 9. -/
opaque Config.freeWord : Nat → Word

/-- `DLY - 1` when DLY is 0, which the spec says is never taken (R60, R25). Log 8. -/
opaque Config.freeDelay : Nat → Nat

end Sys2Proof
end

