-- ==== Sys2Proof/Machine/State.lean ====
section
/-! DEFINITION. The state of one instance as plain data (spec/10_state.md R10), its value at power-on (R220), and
the reasons a step can stop. -/

namespace Sys2Proof.Machine

/-- The status of a response (R78). -/
inductive Status where
  | ok
  | initError
  | rangeError
  | sizeError
  | copyError
  /-- The wrapper's error: its number is set aside and no step answers with it (R78, R187). -/
  | indexError
  deriving DecidableEq, Repr

/-- A response record (R77); the port it goes to stands beside it in `State.answers`. -/
structure Response where
  st    : Status
  value : Word
  data  : List Byte
  deriving DecidableEq, Repr

/-- An event of OPLOG (R33). -/
inductive Event where
  /-- `set_clock(false)`. -/
  | c0
  /-- `set_clock(true)`. -/
  | c1
  /-- `set_data(false)`. -/
  | d0
  /-- `set_data(true)`. -/
  | d1
  /-- A completed clock-high hold of `n` ticks. -/
  | w (n : Nat)
  /-- A completed latch wait of `n` ticks. -/
  | l (n : Nat)
  deriving DecidableEq, Repr

/-- One choice of the environment: which step is taken next, with what that step draws (R56, R58, R63, R165,
R134). Log 3. -/
inductive Move where
  /-- Time passes (R100). -/
  | tick
  /-- A caller presents a request at port `p` (R63). -/
  | submit (p : Port) (r : Request)
  /-- The gate takes the step of the request pending at port `p`, with these draws. -/
  | gate (p : Port) (pinsOk copyOk : Bool)
  deriving DecidableEq, Repr

/-- The state. The first group is the hardware's registers, the second the observation the spec adds (R33, R35),
the third the parameters and the internal word of R82, the last the model's own fields. -/
structure State where
  /-- ENA (R11). -/
  ena : Bool
  /-- NLED (R12). -/
  nled : Word
  /-- LOCK (R13). -/
  lock : Bool
  /-- OWNER (R14). -/
  owner : Port
  /-- PEND (R30): the pending requests, ports strictly rising, one a port. -/
  pend : List (Port × Request)
  /-- FB (R15): the bytes of the frame that are not 0x00, indices strictly rising. Log 16. -/
  fb : List Host.Cell
  /-- CLK (R16). -/
  clk : Bool
  /-- DAT (R17). -/
  dat : Bool
  /-- OE (R18). -/
  oe : Bool
  /-- PH (R22). -/
  ph : Phase
  /-- BYP (R23). -/
  byp : Word
  /-- BITC (R24). -/
  bitc : BitVec 3
  /-- TXLEN (R21). -/
  txlen : Word
  /-- DLY (R25), below `2 ^ DLY_W`. Log 18. -/
  dly : Nat
  /-- OPLOG (R33), oldest event first. -/
  oplog : List Event
  /-- T (R35). -/
  t : Nat
  /-- The parameters of the instance (00_scope.md section 5). No step writes them. Log 1. -/
  cfg : Config
  /-- The internal word between the gate and the encoder (R82). Log 12. -/
  strobe : StrobeWord
  /-- The environment's coming choices; when none is left, time passes. Log 3. -/
  moves : List Move
  /-- The port the gate serves in this step. Log 3. -/
  grant : Port
  /-- The draw `pins_ok` of this step (R165). Log 3. -/
  pinsOk : Bool
  /-- The draw `copy_ok` of this step (R134, R135). Log 3. -/
  copyOk : Bool
  /-- The responses delivered, oldest first, each with its port (R77). Log 17. -/
  answers : List (Port × Response)
  /-- How many free values have been used. Log 7. -/
  draws : Nat
  deriving DecidableEq, Repr

/-- Why the machine stops with a fault. -/
inductive Fault where
  /-- Raised by DSET when BYP lies outside the frame: there is no byte there (R50). Safe: no state that the
  invariant of R26 admits raises it. Log 10. -/
  | frameIndex
  deriving DecidableEq, Repr

/-- Why a step has no meaning. -/
inductive Refusal where
  /-- Raised by an arm of `exec` that has no meaning yet; no arm is left so. Safe. -/
  | notModelled (mnemonic : String)
  /-- Raised by a step of a state in which a request with opcode 5, 6 or 7 is pending (R76). Safe. -/
  | reservedOpcode (op : BitVec 3)
  /-- Raised by a step of a state in which an OPEN is pending while ENA = 1, and by OPEN itself there (R168). Safe. -/
  | openWhileOpen
  /-- Raised by a step of a state in which a WRITE, READ or QUERY is pending while ENA = 0, and by those commands
  there (R175). Safe. -/
  | closedDevice
  /-- Raised by a tick of a state with PH = 7 (R81). Safe. -/
  | phaseSeven
  /-- Raised by a step of a state in which a request is pending whose payload length its header does not admit;
  such a record cannot be formed (R72). Safe. Log 15. -/
  | malformedRequest
  deriving DecidableEq, Repr

/-- The state at power-on (R220) of an instance with parameters `c`. NLED, OWNER and FB are "unspecified" there:
NLED and OWNER are 0 and FB has no byte. DESIGN CHOICE, unsafe: log 6. -/
def State.powerOn (c : Config) : State where
  ena := false
  nled := 0
  lock := false
  owner := 0
  pend := []
  fb := []
  clk := false
  dat := false
  oe := false
  ph := 0
  byp := 0
  bitc := 7
  txlen := 0
  dly := 0
  oplog := []
  t := 0
  cfg := c
  strobe := 0
  moves := []
  grant := 0
  pinsOk := true
  copyOk := true
  answers := []
  draws := 0

/-- The machine right after reset (R220), with the reference parameters (log 1). -/
def State.reset : State := State.powerOn Config.reference

end Sys2Proof.Machine
end

