-- ==== Sys2Proof/Machine/Ops.lean ====
section
/-! DEFINITION. The named operations over memory, pending requests, the pins and the sequencer that the meanings
share: spec/20_memory.md (FB, the lock, submit), spec/10_state.md R30, R33, spec/30_encoding.md R77, R84,
spec/60_exceptions.md R195 (raising an error). -/

namespace Sys2Proof.Machine

/-! ### Lists of key and value pairs in one canonical form: keys strictly rising -/

/-- The value at key `k`. -/
def kvGet {α : Type} (k : Nat) (m : List (Nat × α)) : Option α :=
  match m with
  | [] => none
  | c :: t => if c.1 = k then some c.2 else kvGet k t

/-- Put `v` at key `k`. -/
def kvPut {α : Type} (k : Nat) (v : α) (m : List (Nat × α)) : List (Nat × α) :=
  match m with
  | [] => [(k, v)]
  | c :: t => if k < c.1 then (k, v) :: c :: t else if k = c.1 then (k, v) :: t else c :: kvPut k v t

/-- Remove the keys that `p` holds of. -/
def kvDrop {α : Type} (p : Nat → Bool) (m : List (Nat × α)) : List (Nat × α) := m.filter fun c => !p c.1

/-- Every key is above `lo`. -/
def kvAbove {α : Type} (lo : Nat) (m : List (Nat × α)) : Bool := m.all fun c => decide (lo < c.1)

/-- Keys strictly rising. -/
def kvSorted {α : Type} (m : List (Nat × α)) : Bool :=
  match m with
  | [] => true
  | c :: t => kvAbove c.1 t && kvSorted t

/-! ### The frame buffer -/

/-- What an index that is not listed reads as: 0x00, what OPEN and the zero-fill leave (R15). Log 16. -/
def Memory.unlisted : Byte := 0

/-- The canonical form of FB: indices strictly rising, and none listed with the unlisted value. -/
def Memory.wf (m : List Host.Cell) : Bool := kvSorted m && m.all fun c => c.2 != Memory.unlisted

/-- Every listed index is below `n`. -/
def Memory.within (n : Nat) (m : List Host.Cell) : Bool := m.all fun c => decide (c.1 < n)

/-- Byte `a` of the buffer, whether or not `a` lies in the frame. -/
def Memory.read (m : List Host.Cell) (a : Nat) : Byte := (kvGet a m).getD Memory.unlisted

/-- Store byte `b` at `a`, keeping the canonical form. -/
def Memory.write (m : List Host.Cell) (a : Nat) (b : Byte) : List Host.Cell :=
  if b = Memory.unlisted then kvDrop (fun k => k == a) m else kvPut a b m

/-- `MemWrite(a, len(bs), bs)` (00_scope.md section 6). -/
def Memory.writeBytes (m : List Host.Cell) (a : Nat) (bs : List Byte) : List Host.Cell :=
  match bs with
  | [] => m
  | b :: t => Memory.writeBytes (Memory.write m a b) (a + 1) t

/-- `FB[k] <- 0x00` for `lo <= k < hi` (R134). -/
def Memory.zeroFill (m : List Host.Cell) (lo hi : Nat) : List Host.Cell :=
  kvDrop (fun k => decide (lo ≤ k) && decide (k < hi)) m

/-- `MemRead(a, n)` (00_scope.md section 6). -/
def Memory.bytes (m : List Host.Cell) (a n : Nat) : List Byte :=
  match n with
  | 0 => []
  | k + 1 => Memory.read m a :: Memory.bytes m (a + 1) k

/-- A buffer that holds exactly the bytes `bs` from index 0. -/
def Memory.ofBytes (bs : List Byte) : List Host.Cell := Memory.writeBytes [] 0 bs

/-- `FBLEN = 3 * NLED`, computed in naturals (R4, R15, R60). -/
def frameLen (s : State) : Nat := colorBytes * s.nled.toNat

/-- The whole buffer, `FB[0]` first (R41). -/
def frameBytes (s : State) : List Byte := Memory.bytes s.fb 0 (frameLen s)

/-- `FB[i]`; there is no byte outside `0 .. FBLEN-1` (R50). -/
def frameByte (s : State) (i : Nat) : Option Byte :=
  if i < frameLen s then some (Memory.read s.fb i) else none

/-! ### Numbers of 32 bits -/

/-- The free value in state `s` for a 32-bit result that the spec says never arises (R60). Log 9. -/
def narrowWord (s : State) (n : Nat) : Word := if n < 2 ^ 32 then BitVec.ofNat 32 n else Config.freeWord s.draws

/-- The count of free values after `narrowWord s n`. -/
def narrowDraws (s : State) (n : Nat) : Nat := if n < 2 ^ 32 then s.draws else s.draws + 1

/-! ### Pending requests and responses -/

/-- PEND[p] (R30). -/
def pending (s : State) (p : Port) : Option Request := kvGet p s.pend

/-- `PEND[p] <- none`. -/
def clearPending (s : State) (p : Port) : State := { s with pend := kvDrop (fun k => k == p) s.pend }

/-- submit (R63), enabled only while PEND[p] = none (R31); a submit that is not enabled does not happen (log 4). -/
def submit (p : Port) (r : Request) (s : State) : State :=
  match pending s p with
  | none => { s with pend := kvPut p r s.pend }
  | some _ => s

/-- `respond(p, st, value, data)` to the port the gate serves: the response is delivered and the port is free
again (R77). -/
def respond (s : State) (st : Status) (value : Word) (data : List Byte) : State :=
  { clearPending s s.grant with answers := s.answers ++ [(s.grant, { st := st, value := value, data := data })] }

/-- `raise <Error>`, this block's way of taking an exception (R195): the status goes to the caller with value 0 and
no data, its PEND entry is cleared, and no register changes. There is nothing to return to (R196). -/
def raiseError (s : State) (e : Status) : State := respond s e 0 []

/-- `wait until`: the step is not enabled, the caller stays blocked and nothing changes (R54; log 4). -/
def stayBlocked (s : State) : State := s

/-- The number of a status on the 3-bit field `st` (R78). -/
def Status.code (st : Status) : BitVec 3 :=
  match st with
  | .ok => 0
  | .initError => 1
  | .rangeError => 2
  | .sizeError => 3
  | .copyError => 4
  | .indexError => 5

/-! ### Pins, OPLOG, time -/

/-- `log(e)` (R33). -/
def logEvent (s : State) (e : Event) : State := { s with oplog := s.oplog ++ [e] }

/-- `set_clock(b)` (R84) with its event (R33). -/
def setClock (s : State) (b : Bool) : State := logEvent { s with clk := b } (if b then .c1 else .c0)

/-- `set_data(b)` (R84) with its event (R33). -/
def setData (s : State) (b : Bool) : State := logEvent { s with dat := b } (if b then .d1 else .d0)

/-- `T <- T + 1` (R35, R100). -/
def countTick (s : State) : State := { s with t := s.t + 1 }

/-! ### The sequencer -/

/-- The phase numbers of R80. -/
abbrev phIdle : Phase := 0
abbrev phClklo : Phase := 1
abbrev phDset : Phase := 2
abbrev phClkhi : Phase := 3
abbrev phHold : Phase := 4
abbrev phLatch : Phase := 5
abbrev phLwait : Phase := 6

/-- The register writes of TRANSMIT(n) (R101). -/
def startTransmit (s : State) (n : Word) : State :=
  { s with
    txlen := n
    byp := 0
    bitc := 7
    dly := 0
    ph := if n = 0 then phLatch else phClklo }

/-- The gate issues the strobe of a transmit of `n` bytes (R82). -/
def issueStrobe (s : State) (n : Word) : State := { s with strobe := mkStrobe n }

/-- The encoder takes a strobe that stands on the internal word, in the step that issues it (R101). -/
def takeStrobe (s : State) : State :=
  if strobeStart s.strobe then startTransmit { s with strobe := noStrobe } (strobeLen s.strobe) else s

/-- `DLY - 1`, which is only taken when DLY is at least 1 (R25, R60); of DLY = 0 the spec gives no result, and a
free value of DLY's width stands for it. Log 8. -/
def delayMinusOne (s : State) : Nat :=
  if s.dly = 0 then Config.freeDelay s.draws % 2 ^ s.cfg.dlyW else s.dly - 1

/-- `DLY <- DLY - 1`. -/
def countDelay (s : State) : State :=
  { s with
    dly := delayMinusOne s
    draws := if s.dly = 0 then s.draws + 1 else s.draws }

/-! ### What a step fetches, and the states no step has a meaning in -/

/-- The request pending at the port the gate serves, as an instruction. -/
def fetchCommand (s : State) (p : Port) : Option (Except Reject Instr) := (pending s p).map decodeRequest

/-- The refusal that stands for a word without an instruction. -/
def refusalOf (r : Reject) : Refusal :=
  match r with
  | .reservedOpcode op => .reservedOpcode op
  | .payloadLength => .malformedRequest
  | .noStrobe => .malformedRequest
  | .phaseSeven => .phaseSeven

/-- Why a pending command has no meaning while ENA is `ena` (R168, R175), if it has none. -/
def commandRefusal (ena : Bool) (i : Instr) : Option Refusal :=
  match i with
  | .openDev _ => if ena then some .openWhileOpen else none
  | .write _ _ => if ena then none else some .closedDevice
  | .read => if ena then none else some .closedDevice
  | .query => if ena then none else some .closedDevice
  | .close => none
  | .transmit _ => none
  | .idle => none
  | .clklo => none
  | .dset => none
  | .clkhi => none
  | .hold => none
  | .latch => none
  | .lwait => none

/-- Why a pending request has no meaning while ENA is `ena` (R76, R168, R175, R72), if it has none. -/
def requestRefusal (ena : Bool) (r : Request) : Option Refusal :=
  match decodeRequest r with
  | .error e => some (refusalOf e)
  | .ok i => commandRefusal ena i

/-- The first pending request without a meaning, in the order of the ports: a state that has one is refused (R76,
R168, R175; log 5). -/
def standingRefusal (s : State) : Option Refusal := s.pend.findSome? fun c => requestRefusal s.ena c.2

/-- The gate turns to port `p` with the draws of this step. -/
def selectPort (s : State) (p : Port) (pinsOk copyOk : Bool) : State :=
  { s with grant := p, pinsOk := pinsOk, copyOk := copyOk }

/-- Put the words of one instruction where the next step fetches it: a request at port 0 with the gate turned to
it and both draws true, a strobe on the internal word, a phase in PH with a tick. Log 14. -/
def placeWords (s : State) (w : Words) : State :=
  match w with
  | .request r => { s with pend := kvPut 0 r s.pend, moves := .gate 0 true true :: s.moves }
  | .strobe x => { s with strobe := x }
  | .phase p => { s with ph := p, moves := .tick :: s.moves }

end Sys2Proof.Machine
end

