-- ==== Sys2Proof/Machine/Operands.lean ====
section
/-! DEFINITION. The operand forms: the LED count of OPEN (R165), the length of a WRITE (R130), the byte count of a
transmit (R134, R82) and the bit a DSET sends (R104). -/

namespace Sys2Proof.Machine

/-- `n = (if has_cfg = 1 then arg else 20)` (R165). -/
def openCount (numLeds : Option Word) : Word := numLeds.getD defaultLeds

/-- `3 * NLED` as the 32-bit byte count of a transmit and as a READ's `value` (R134, R79); beyond 32 bits a free
value (log 9). -/
def frameCount (s : State) : Word := narrowWord s (frameLen s)

/-- `BYP + 1` as a 32-bit register value (R106); beyond 32 bits a free value (log 9). -/
def nextByte (s : State) : Word := narrowWord s (s.byp.toNat + 1)

/-- `v[i]`, bit `i` of a byte, bit 7 the most significant (00_scope.md section 6). -/
def bitOf (b : Byte) (i : BitVec 3) : Bool := b.getLsbD i.toNat

/-- The bit `FB[BYP][BITC]` of a DSET (R104), if BYP lies in the frame. -/
def currentBit (s : State) : Option Bool := (frameByte s s.byp.toNat).map fun b => bitOf b s.bitc

end Sys2Proof.Machine
end

