-- ==== Sys2Proof/Machine/Flags.lean ====
section
/-! DEFINITION. The block has no condition codes (spec/10_state.md R27). What it has instead: the derived status
"transmit in progress", the lines the pins drive, and the tests that decide a command's outcome. -/

namespace Sys2Proof.Machine

/-- "Transmit in progress": `PH != IDLE` (R27). -/
def transmitting (s : State) : Bool := s.ph != phIdle

/-- `len mod 3 != 0` (R131). -/
def misaligned (len : Word) : Bool := len.toNat % colorBytes != 0

/-- `len / 3 > NLED` (R132). -/
def tooLong (s : State) (len : Word) : Bool := decide (s.nled.toNat < len.toNat / colorBytes)

/-- A length is valid when it is a multiple of 3 and not too long (R133). -/
def validLength (s : State) (len : Word) : Bool := !misaligned len && !tooLong s len

/-- The condition of write-end at the port the gate serves: `LOCK = 1`, `PH = IDLE`, and the port is OWNER (R136). -/
def transmitReturned (s : State) : Bool := s.lock && !transmitting s && s.owner == s.grant

/-- The condition of open: `pins_ok` and `n <= MAX_LEDS` (R166). -/
def acquired (s : State) (n : Word) : Bool := s.pinsOk && decide (n.toNat ≤ s.cfg.maxLeds)

/-- The levels on the clock and the data line; while OE = 0 the lines are not driven and the spec says nothing of
their level (R18, R34). Log 19. -/
def lines (s : State) : Option (Bool × Bool) := if s.oe then some (s.clk, s.dat) else none

end Sys2Proof.Machine
end

