-- ==== Sys2Proof/Machine/Encoder.lean ====
section
/-! DEFINITION. The Bit Encoder (spec/40_encoder.md): TRANSMIT (R101) and the seven phases (R102 to R108). The
tick count T is the tick step's, not a phase's (R100): Step adds it around these meanings. -/

namespace Sys2Proof.Machine

/-- The outcome type of every meaning. -/
abbrev Result := Host.Outcome State Fault Refusal

/-- TRANSMIT(n) (R101). The encoder itself enforces no maximum length (R118). -/
def execTransmit (n : Word) (s : State) : Result := .next (startTransmit s n)

/-- IDLE (R102): nothing. -/
def execIdle (s : State) : Result := .next s

/-- CLKLO (R103). -/
def execClklo (s : State) : Result := .next { setClock s false with ph := phDset }

/-- DSET (R104). A BYP outside the frame names no byte (R50; log 10). -/
def execDset (s : State) : Result :=
  match currentBit s with
  | some b => .next { setData s b with ph := phClkhi }
  | none => .fault .frameIndex

/-- CLKHI (R105). -/
def execClkhi (s : State) : Result := .next { setClock s true with dly := s.cfg.holdTicks, ph := phHold }

/-- What HOLD does on the last tick of a hold (R106); `s` is the state at the start of the step, `c` has DLY
counted down. -/
def holdDone (s c : State) : State :=
  let e := logEvent c (.w s.cfg.holdTicks)
  if s.bitc ≠ 0 then { e with bitc := s.bitc - 1, ph := phClklo }
  else
    { e with
      byp := nextByte c
      draws := narrowDraws c (c.byp.toNat + 1)
      bitc := 7
      ph := if s.byp.toNat + 1 < s.txlen.toNat then phClklo else phLatch }

/-- HOLD (R106). -/
def execHold (s : State) : Result :=
  .next (if delayMinusOne s = 0 then holdDone s (countDelay s) else { countDelay s with ph := phHold })

/-- LATCH (R107). -/
def execLatch (s : State) : Result := .next { setClock s false with dly := s.cfg.latchTicks, ph := phLwait }

/-- LWAIT (R108). -/
def execLwait (s : State) : Result :=
  .next (if delayMinusOne s = 0 then { logEvent (countDelay s) (.l s.cfg.latchTicks) with ph := phIdle }
    else { countDelay s with ph := phLwait })

end Sys2Proof.Machine
end

