-- ==== Sys2Proof/Machine/Lifecycle.lean ====
section
/-! DEFINITION. The OPEN and CLOSE commands (spec/43_lifecycle.md). -/

namespace Sys2Proof.Machine

/-- The register writes of open (R166), the response apart. -/
def openRegisters (n : Word) (s : State) : State :=
  { s with
    nled := n
    fb := []
    clk := false
    dat := false
    oe := true
    lock := false
    ph := phIdle
    byp := 0
    bitc := 7
    txlen := 0
    dly := 0
    ena := true }

/-- OPEN (R165): open (R166), open-fail (R167); while open it has no meaning (R168). -/
def execOpen (numLeds : Option Word) (s : State) : Result :=
  if s.ena then .refused .openWhileOpen
  else if acquired s (openCount numLeds) then .next (respond (openRegisters (openCount numLeds) s) .ok 0 [])
  else .next (raiseError s .initError)

/-- The frame after CLOSE: unspecified bytes (R170), as many as the unspecified NLED gives it. Log 7. -/
def freedFrame (s : State) : List Host.Cell :=
  Memory.ofBytes ((Config.freeFrame s.draws).take (colorBytes * (Config.freeNled s.draws).toNat))

/-- The register writes of close (R170), the response apart. -/
def closeRegisters (s : State) : State :=
  { s with
    ena := false
    oe := false
    fb := freedFrame s
    nled := Config.freeNled s.draws
    draws := s.draws + 1 }

/-- CLOSE (R169): close (R170) once the lock is free, close-again on a closed device (R171). -/
def execClose (s : State) : Result :=
  if !s.ena then .next (respond s .ok 0 [])
  else if s.lock then .next (stayBlocked s)
  else .next (respond (closeRegisters s) .ok 0 [])

end Sys2Proof.Machine
end

