-- ==== Sys2Proof/Machine/ReadQuery.lean ====
section
/-! DEFINITION. The READ and QUERY commands (spec/42_read_query.md). -/

namespace Sys2Proof.Machine

/-- read (R151): the whole buffer and its length; the lock is taken and released within the step. -/
def readSnapshot (s : State) : State :=
  respond { s with draws := narrowDraws s (frameLen s) } .ok (frameCount s) (frameBytes s)

/-- READ (R150): waits for the lock; on a closed device it has no meaning (R175). -/
def execRead (s : State) : Result :=
  if !s.ena then .refused .closedDevice
  else if s.lock then .next (stayBlocked s)
  else .next (readSnapshot s)

/-- QUERY (R155): lock-free; on a closed device it has no meaning (R175). -/
def execQuery (s : State) : Result :=
  if !s.ena then .refused .closedDevice else .next (respond s .ok s.nled [])

end Sys2Proof.Machine
end

