-- ==== Sys2Proof/Machine/Write.lean ====
section
/-! DEFINITION. The WRITE command (spec/41_write.md): reject-range, reject-size, write-copy-fail, write-begin,
write-end, and waiting for the lock. The port is the one the gate serves (`State.grant`). -/

namespace Sys2Proof.Machine

/-- FB after write-begin: the candidate from index 0, zeros from `len` to the end of the frame (R134). -/
def storeCandidate (s : State) (len : Word) (data : List Byte) : List Host.Cell :=
  Memory.zeroFill (Memory.writeBytes s.fb 0 data) len.toNat (frameLen s)

/-- write-begin (R134): acquire, copy, zero-fill, and TRANSMIT(3 * NLED), in one step. PEND is kept. -/
def writeBegin (len : Word) (data : List Byte) (s : State) : State :=
  takeStrobe (issueStrobe
    { s with
      lock := true
      owner := s.grant
      fb := storeCandidate s len data
      draws := narrowDraws s (frameLen s) }
    (frameCount s))

/-- write-copy-fail (R135): CopyError, the lock free before and after. -/
def writeCopyFail (s : State) : State := raiseError s .copyError

/-- write-end (R136): release and answer with the accepted length. -/
def writeEnd (len : Word) (s : State) : State := respond { s with lock := false } .ok len []

/-- The step of a WRITE that is enabled, conditions tried in the order of R130; when none is, the caller waits
(R54). On a closed device a WRITE has no meaning (R175). -/
def execWrite (len : Word) (data : List Byte) (s : State) : Result :=
  if !s.ena then .refused .closedDevice
  else if misaligned len then .next (raiseError s .rangeError)
  else if tooLong s len then .next (raiseError s .sizeError)
  else if s.lock then
    if transmitReturned s then .next (writeEnd len s) else .next (stayBlocked s)
  else if s.copyOk then .next (writeBegin len data s)
  else .next (writeCopyFail s)

end Sys2Proof.Machine
end

