-- ==== Sys2Proof/Machine/Dispatch.lean ====
section
/-! DEFINITION. One arm per row of spec/opcode_table.json. -/

namespace Sys2Proof.Machine

/-- The meaning of an instruction. -/
def exec (i : Instr) (s : State) : Host.Outcome State Fault Refusal :=
  match i with
  -- spec/43_lifecycle.md, 41_write.md, 42_read_query.md: the commands
  | .openDev n => Sys2Proof.Machine.execOpen n s
  | .write len data => Sys2Proof.Machine.execWrite len data s
  | .read => Sys2Proof.Machine.execRead s
  | .query => Sys2Proof.Machine.execQuery s
  | .close => Sys2Proof.Machine.execClose s
  -- spec/40_encoder.md: TRANSMIT and the phases
  | .transmit n => Sys2Proof.Machine.execTransmit n s
  | .idle => Sys2Proof.Machine.execIdle s
  | .clklo => Sys2Proof.Machine.execClklo s
  | .dset => Sys2Proof.Machine.execDset s
  | .clkhi => Sys2Proof.Machine.execClkhi s
  | .hold => Sys2Proof.Machine.execHold s
  | .latch => Sys2Proof.Machine.execLatch s
  | .lwait => Sys2Proof.Machine.execLwait s

end Sys2Proof.Machine
end

