-- ==== Sys2Proof/Machine/Step.lean ====
section
/-! DEFINITION. One step of the machine: the next move of the environment, and what it fetches and runs
(spec/00_scope.md section 6, spec/40_encoder.md R100, spec/20_memory.md R58, R63). -/

namespace Sys2Proof.Machine

/-- The tick step (R100): `T <- T + 1` and the phase that PH selects; PH = 7 is refused (R81). -/
def tickStep (s : State) : Host.Outcome State Fault Refusal :=
  match decodePhase s.ph with
  | .ok i => exec i (countTick s)
  | .error e => .refused (refusalOf e)

/-- The gate step of the request pending at port `p`; with nothing pending there nothing happens (log 4). -/
def gateStep (p : Port) (pinsOk copyOk : Bool) (s : State) : Host.Outcome State Fault Refusal :=
  match fetchCommand s p with
  | none => .next s
  | some (.ok i) => exec i (selectPort s p pinsOk copyOk)
  | some (.error e) => .refused (refusalOf e)

/-- One move of the environment in a state that has left it behind. -/
def moveStep (m : Move) (s : State) : Host.Outcome State Fault Refusal :=
  match m with
  | .tick => tickStep s
  | .submit p r => .next (submit p r s)
  | .gate p pinsOk copyOk => gateStep p pinsOk copyOk s

/-- One step. A state with a pending request that has no meaning is refused (R76, R168, R175; log 5). A strobe that
stands on the internal word is taken first (R101; log 12). Then the next move of the environment is taken; when it
has chosen nothing more, time passes (R100: the tick step is always enabled). -/
def step (s : State) : Host.Outcome State Fault Refusal :=
  match standingRefusal s with
  | some r => .refused r
  | none =>
    match decodeStrobe s.strobe with
    | .ok i => exec i { s with strobe := noStrobe }
    | .error _ =>
      match s.moves with
      | [] => tickStep s
      | m :: ms => moveStep m { s with moves := ms }

/-- `s` with one instruction of the table stored where the next step fetches it (log 13, log 14). -/
def State.withFetchWord (s : State) (nbits w : Nat) : State := placeWords s (tableWords nbits w)

end Sys2Proof.Machine
end

