-- ==== Sys2Proof/Safety.lean ====
section
/-! DEFINITION. The terms the claims are stated in: the invariant of every reachable state (spec/10_state.md R26),
the state at rest (R245), the waveform's rising edges (R34, R120), and what one transmit logs and how long it takes
(R112, R113). -/

namespace Sys2Proof.Safety

open Sys2Proof.Machine

/-! ### What a transmit sends, logs and takes -/

/-- The bits of a byte, most significant first (R44). -/
def byteBits (b : Byte) : List Bool :=
  [b.getLsbD 7, b.getLsbD 6, b.getLsbD 5, b.getLsbD 4, b.getLsbD 3, b.getLsbD 2, b.getLsbD 1, b.getLsbD 0]

/-- The bits of a byte sequence in the order they leave the block (R42, R44). -/
def sentBits (bs : List Byte) : List Bool := bs.flatMap byteBits

/-- The events of one bit: `C0, D(b), C1, W(H)` (R112). -/
def bitLog (c : Config) (b : Bool) : List Event := [.c0, if b then .d1 else .d0, .c1, .w c.holdTicks]

/-- What TRANSMIT appends to OPLOG for the bytes `bs` (R112). -/
def transmitLog (c : Config) (bs : List Byte) : List Event :=
  (sentBits bs).flatMap (bitLog c) ++ [.c0, .l c.latchTicks]

/-- The tick steps of TRANSMIT(n) (R113). -/
def transmitTicks (c : Config) (n : Nat) : Nat := 8 * n * (3 + c.holdTicks) + 1 + c.latchTicks

/-- The ticks still owed after the current bit's hold: the bits of this byte below BITC, the bytes after BYP, the
latch (R106, R107, R108). -/
def ticksAfterBit (s : State) : Nat :=
  s.bitc.toNat * (3 + s.cfg.holdTicks) + 8 * (s.txlen.toNat - s.byp.toNat - 1) * (3 + s.cfg.holdTicks)
    + 1 + s.cfg.latchTicks

/-- The ticks until the encoder returns to IDLE, read off the sequencer's position (R110). -/
def ticksLeft (s : State) : Nat :=
  match s.ph.toNat with
  | 1 => 3 + s.cfg.holdTicks + ticksAfterBit s
  | 2 => 2 + s.cfg.holdTicks + ticksAfterBit s
  | 3 => 1 + s.cfg.holdTicks + ticksAfterBit s
  | 4 => s.dly + ticksAfterBit s
  | 5 => 1 + s.cfg.latchTicks
  | 6 => s.dly
  | _ => 0

/-- What a receiver gets that takes the data line at each rising edge of the clock over `k` steps of the machine
(R34: the edge is CLK = 0 before the step and 1 after it, the level is DAT after it; R120). -/
def risingEdgeBits (k : Nat) (s : State) : List Bool :=
  match k with
  | 0 => []
  | k + 1 =>
    match step s with
    | .next t => (if !s.clk && t.clk then [t.dat] else []) ++ risingEdgeBits k t
    | .fault _ => []
    | .refused _ => []

/-- The completed latch waits in OPLOG (R139). -/
def latchCount (es : List Event) : Nat :=
  match es with
  | [] => 0
  | .l _ :: t => latchCount t + 1
  | _ :: t => latchCount t

/-- 1 while a transmit is in progress (R27). -/
def inProgress (s : State) : Nat := if transmitting s then 1 else 0

/-! ### The states claims speak of -/

/-- At rest: no request pending, the lock free, the encoder idle (R245). -/
def atRest (s : State) : Bool := s.pend.isEmpty && !s.lock && !transmitting s

/-- No strobe stands on the internal word, so the next step is the environment's move (log 12). -/
def noStrobeStands (s : State) : Bool := !strobeStart s.strobe

/-- A step of `s` is not refused before it begins: no pending request is without a meaning (R76, R168, R175). -/
def answerable (s : State) : Prop := standingRefusal s = none

/-- The next move is a tick: the environment chose it, or chose nothing (log 3). -/
def ticksNext (s : State) : Bool := s.moves.head? == none || s.moves.head? == some .tick

/-- The request pending at OWNER is a WRITE of a valid length (R26 d). -/
def ownerWrites (s : State) : Prop :=
  ∃ r len data, pending s s.owner = some r ∧ decodeRequest r = .ok (.write len data) ∧ validLength s len = true

/-- R26 (h): the level of CLK in each phase. -/
def clockMatchesPhase (s : State) : Prop :=
  (s.ph = phIdle ∨ s.ph = phDset ∨ s.ph = phClkhi ∨ s.ph = phLwait → s.clk = false)
    ∧ (s.ph = phHold → s.clk = true)
    ∧ (s.ph = phLatch → s.clk = decide (0 < s.txlen.toNat))
    ∧ (s.ph = phClklo → s.clk = !(s.byp == 0 && s.bitc == 7))

/-- The invariant. (a) to (h) are the clauses of R26; the others say what the model's own form of the state adds:
the parameters meet their constraints, the lists are canonical, FB lists no byte outside the frame (R50), NLED fits
the frame store while open (R166), no strobe stands. -/
structure Inv (s : State) : Prop where
  cfgOk : s.cfg.ok = true
  strobeIdle : noStrobeStands s = true
  pendSorted : kvSorted s.pend = true
  memWf : Memory.wf s.fb = true
  memWithin : Memory.within (frameLen s) s.fb = true
  nledFits : s.ena = true → s.nled.toNat ≤ s.cfg.maxLeds
  /-- (a) -/
  oeIsEna : s.oe = s.ena
  /-- (b) -/
  closedAtRest : s.ena = false → s.lock = false ∧ s.ph = phIdle
  /-- (c) -/
  busyHoldsLock : s.ph ≠ phIdle → s.lock = true
  /-- (d) -/
  holder : s.lock = true → ownerWrites s ∧ s.txlen.toNat = frameLen s
  /-- (e) -/
  bypInRange : s.byp.toNat ≤ s.txlen.toNat
  /-- (e) -/
  bypInFrame : s.ph = phClklo ∨ s.ph = phDset ∨ s.ph = phClkhi ∨ s.ph = phHold → s.byp.toNat < s.txlen.toNat
  /-- (f) -/
  dlyAtRest : s.ph ≠ phHold → s.ph ≠ phLwait → s.dly = 0
  /-- (f) -/
  dlyCounting : s.ph = phHold ∨ s.ph = phLwait → 1 ≤ s.dly
  /-- R25: DLY fits its width. -/
  dlyFits : s.dly < 2 ^ s.cfg.dlyW
  /-- (g) -/
  phaseLegal : s.ph ≠ 7
  /-- (h) -/
  clock : clockMatchesPhase s

end Sys2Proof.Safety
end

