-- ==== Sys2Proof/Certificates/Slice0/Obligations.lean ====
section
/-! DEFINITION. The statements for the provers, from the numbered rules of spec/. "Not disturbed" is written out as
an update of the state before: a field that an update does not name is unchanged. -/

open Sys2Proof Sys2Proof.Machine Sys2Proof.Safety

/-! ### Encoding -/

/-- R70 to R74, R80, R82: no operand of a well-formed instruction is lost in its words. -/
def Obligations.DecodeOfEncodeIsTheInstruction : Prop :=
  ∀ i : Instr, i.wf = true → decode (encode i) = .ok i

/-- R80, R82: a strobe or phase word that means an instruction is that instruction's word; R71: a request record
that means a command differs from the command's record at most in the fields the command ignores: `arg` and
`has_cfg` for READ, QUERY and CLOSE, `has_cfg` for WRITE, `arg` for OPEN when `has_cfg = 0`. -/
def Obligations.EachWordHasOneMeaning : Prop :=
  (∀ (x : StrobeWord) (i : Instr), decode (.strobe x) = .ok i → encode i = .strobe x)
    ∧ (∀ (x : Phase) (i : Instr), decode (.phase x) = .ok i → encode i = .phase x)
    ∧ (∀ (r : Request) (i : Instr), decode (.request r) = .ok i →
        ∃ r', encode i = .request r' ∧ headerOp r'.hdr = headerOp r.hdr ∧ r'.data = r.data
          ∧ (headerOp r.hdr = 0 → headerHasCfg r'.hdr = headerHasCfg r.hdr
              ∧ (headerHasCfg r.hdr = true → headerArg r'.hdr = headerArg r.hdr))
          ∧ (headerOp r.hdr = 1 → headerArg r'.hdr = headerArg r.hdr))

/-- R71, R75: `hdr = op | has_cfg << 3 | arg << 4`; the opcode selects the command and its operands come from the
fields it uses, whatever the ignored fields hold. -/
def Obligations.HeaderFieldsSelectTheCommand : Prop :=
  ∀ (arg : Word) (hasCfg : Bool) (op : BitVec 3) (data : List Byte),
    let r : Request := { hdr := BitVec.ofNat 36 (op.toNat + 8 * hasCfg.toNat + 16 * arg.toNat), data := data }
    (op = 0 → data = [] → decodeRequest r = .ok (.openDev (if hasCfg then some arg else none)))
      ∧ (op = 1 → data.length = arg.toNat → decodeRequest r = .ok (.write arg data))
      ∧ (op = 2 → data = [] → decodeRequest r = .ok .read)
      ∧ (op = 3 → data = [] → decodeRequest r = .ok .query)
      ∧ (op = 4 → data = [] → decodeRequest r = .ok .close)
      ∧ (op = 5 ∨ op = 6 ∨ op = 7 → decodeRequest r = .error (.reservedOpcode op))

/-- Words written out from the spec: the headers of 95_test_vectors.md (OPEN 3 is 0x38, OPEN without a value but with
`arg = 77` is 0x4D0, WRITE of 3 bytes 0x31, READ 0x2, QUERY 0x3, CLOSE 0x4), the strobe of 3 bytes (R82), the
phases (R80). -/
def Obligations.WordsOfTheSpecDecode : Prop :=
  decode (.request { hdr := 0x38, data := [] }) = .ok (.openDev (some 3))
    ∧ decode (.request { hdr := 0x4D0, data := [] }) = .ok (.openDev none)
    ∧ decode (.request { hdr := 0x31, data := [1, 2, 3] }) = .ok (.write 3 [1, 2, 3])
    ∧ decode (.request { hdr := 0x2, data := [] }) = .ok .read
    ∧ decode (.request { hdr := 0x3, data := [] }) = .ok .query
    ∧ decode (.request { hdr := 0x4, data := [] }) = .ok .close
    ∧ decode (.strobe 0b111) = .ok (.transmit 3)
    ∧ (List.range 7).map (fun n => decode (.phase (BitVec.ofNat 3 n))) =
        [.ok .idle, .ok .clklo, .ok .dset, .ok .clkhi, .ok .hold, .ok .latch, .ok .lwait]

/-! ### Situations without a meaning -/

/-- R76, R168, R175: a state in which a request is pending with a reserved opcode, an OPEN while ENA = 1, or a
WRITE, READ or QUERY while ENA = 0 takes no step, whatever the next move is. Which request gives the refusal its
name when several have none is the model's choice (log 5), and so left open here. -/
def Obligations.RequestsWithoutMeaningAreRefused : Prop :=
  ∀ (s : State) (p : Port) (r : Request), pending s p = some r →
    (5 ≤ (headerOp r.hdr).toNat
      ∨ (headerOp r.hdr = 0 ∧ s.ena = true)
      ∨ ((headerOp r.hdr = 1 ∨ headerOp r.hdr = 2 ∨ headerOp r.hdr = 3) ∧ s.ena = false)) →
    ∃ why, step s = .refused why
      ∧ ((∃ op, why = .reservedOpcode op) ∨ why = .openWhileOpen ∨ why = .closedDevice ∨ why = .malformedRequest)

/-- R168, R175 at the level of the meanings: the commands themselves have none there. -/
def Obligations.CommandsWithoutMeaningAreRefused : Prop :=
  ∀ s : State,
    (s.ena = true → ∀ n, exec (.openDev n) s = .refused .openWhileOpen)
      ∧ (s.ena = false → exec .read s = .refused .closedDevice ∧ exec .query s = .refused .closedDevice
          ∧ ∀ len data, exec (.write len data) s = .refused .closedDevice)

/-- R81: a tick in a state with PH = 7 is refused. -/
def Obligations.PhaseSevenIsRefused : Prop :=
  ∀ s : State, s.ph = 7 → answerable s → noStrobeStands s = true → ticksNext s = true →
    step s = .refused .phaseSeven

/-! ### The encoder: TRANSMIT and the phases -/

/-- R101: the register writes of TRANSMIT(n); no pin and no event. R101 issues it only from IDLE and with
`n <= 3 * NLED`; that it makes the same writes in every other state and for every `n` is the model's choice (log 12). -/
def Obligations.TransmitStartsTheEncoder : Prop :=
  ∀ (n : Word) (s : State),
    exec (.transmit n) s =
      .next { s with txlen := n, byp := 0, bitc := 7, dly := 0, ph := if n = 0 then 5 else 1 }

/-- R102: IDLE does nothing. -/
def Obligations.IdlePhaseDoesNothing : Prop := ∀ s : State, exec .idle s = .next s

/-- R103. -/
def Obligations.ClkloSetsTheClockLow : Prop :=
  ∀ s : State, exec .clklo s = .next { s with clk := false, oplog := s.oplog ++ [.c0], ph := 2 }

/-- R104: for BYP in the frame. -/
def Obligations.DsetSendsTheCurrentBit : Prop :=
  ∀ s : State, s.byp.toNat < 3 * s.nled.toNat →
    let b := (Memory.read s.fb s.byp.toNat).getLsbD s.bitc.toNat
    exec .dset s = .next { s with dat := b, oplog := s.oplog ++ [if b then .d1 else .d0], ph := 3 }

/-- R50: outside the frame there is no byte; the model's DSET stops there (log 10, DEDUCED). -/
def Obligations.DsetOutsideTheFrameFaults : Prop :=
  ∀ s : State, 3 * s.nled.toNat ≤ s.byp.toNat → exec .dset s = .fault .frameIndex

/-- R105. -/
def Obligations.ClkhiSetsTheClockHigh : Prop :=
  ∀ s : State,
    exec .clkhi s = .next { s with clk := true, oplog := s.oplog ++ [.c1], dly := s.cfg.holdTicks, ph := 4 }

/-- R106: for a DLY of at least 1 (R25) and a BYP below TXLEN (R26 e). -/
def Obligations.HoldCountsThenMovesOn : Prop :=
  ∀ s : State, 1 ≤ s.dly → s.byp.toNat < s.txlen.toNat →
    exec .hold s = .next (
      if s.dly - 1 = 0 then
        if s.bitc ≠ 0 then
          { s with dly := 0, oplog := s.oplog ++ [.w s.cfg.holdTicks], bitc := s.bitc - 1, ph := 1 }
        else
          { s with
            dly := 0
            oplog := s.oplog ++ [.w s.cfg.holdTicks]
            byp := s.byp + 1
            bitc := 7
            ph := if s.byp.toNat + 1 < s.txlen.toNat then 1 else 5 }
      else { s with dly := s.dly - 1, ph := 4 })

/-- R107. -/
def Obligations.LatchSetsTheClockLow : Prop :=
  ∀ s : State,
    exec .latch s = .next { s with clk := false, oplog := s.oplog ++ [.c0], dly := s.cfg.latchTicks, ph := 6 }

/-- R108: for a DLY of at least 1 (R25). -/
def Obligations.LwaitCountsThenReturns : Prop :=
  ∀ s : State, 1 ≤ s.dly →
    exec .lwait s = .next (
      if s.dly - 1 = 0 then { s with dly := 0, oplog := s.oplog ++ [.l s.cfg.latchTicks], ph := 0 }
      else { s with dly := s.dly - 1, ph := 6 })

/-- R102 to R108, R111: every phase completes in every state (DSET: with BYP in the frame), and writes nothing but
the registers its own rule names; every byte reads as before. Two results the spec does not give are free values and
count DRAWS: `DLY - 1` for a DLY of 0 (log 8), and `BYP + 1` for a BYP of `2^32 - 1` (log 9). -/
def Obligations.PhasesCompleteWithTheirFrame : Prop :=
  ∀ (i : Instr) (s : State), i.isPhase = true → (i = .dset → s.byp.toNat < frameLen s) →
    ∃ t, exec i s = .next t
      ∧ (i = .idle → t = s)
      ∧ (i = .clklo → t = { s with clk := t.clk, oplog := t.oplog, ph := t.ph })
      ∧ (i = .dset → t = { s with dat := t.dat, oplog := t.oplog, ph := t.ph })
      ∧ (i = .clkhi → t = { s with clk := t.clk, oplog := t.oplog, dly := t.dly, ph := t.ph })
      ∧ (i = .hold → t = { s with
          dly := t.dly, oplog := t.oplog, bitc := t.bitc, byp := t.byp, ph := t.ph, draws := t.draws })
      ∧ (i = .latch → t = { s with clk := t.clk, oplog := t.oplog, dly := t.dly, ph := t.ph })
      ∧ (i = .lwait → t = { s with dly := t.dly, oplog := t.oplog, ph := t.ph, draws := t.draws })
      ∧ ∀ a, Memory.read t.fb a = Memory.read s.fb a

/-- R110: the next-phase table, row by row, and that there is no other transfer of control: a step that is no tick and
moves the position (PH, BYP, BITC) starts a transmit at its entry point or is an OPEN, which puts the position at
rest (R29). R110 has TRANSMIT from IDLE only; that it starts the encoder from any phase, and that a strobe may stand,
is the model's choice (log 12). -/
def Obligations.EncoderFollowsTheNextPhaseTable : Prop :=
  (∀ (n : Word) (s : State), ∃ t, exec (.transmit n) s = .next t ∧ (0 < n.toNat → t.ph = 1) ∧ (n = 0 → t.ph = 5))
    ∧ (∀ s t : State, tickStep s = .next t →
      (s.ph = 4 ∨ s.ph = 6 → 1 ≤ s.dly) → (s.ph = 4 → s.byp.toNat < s.txlen.toNat) →
        (s.ph = 0 → t.ph = 0)
          ∧ (s.ph = 1 → t.ph = 2)
          ∧ (s.ph = 2 → t.ph = 3)
          ∧ (s.ph = 3 → t.ph = 4)
          ∧ (s.ph = 4 → 1 < s.dly → t.ph = 4)
          ∧ (s.ph = 4 → s.dly = 1 → s.bitc ≠ 0 → t.ph = 1 ∧ t.byp = s.byp)
          ∧ (s.ph = 4 → s.dly = 1 → s.bitc = 0 → s.byp.toNat + 1 < s.txlen.toNat → t.ph = 1 ∧ t.byp = s.byp + 1)
          ∧ (s.ph = 4 → s.dly = 1 → s.bitc = 0 → s.byp.toNat + 1 = s.txlen.toNat → t.ph = 5)
          ∧ (s.ph = 5 → t.ph = 6)
          ∧ (s.ph = 6 → 1 < s.dly → t.ph = 6)
          ∧ (s.ph = 6 → s.dly = 1 → t.ph = 0))
    ∧ ∀ s t : State, step s = .next t → t.t = s.t → (t.ph ≠ s.ph ∨ t.byp ≠ s.byp ∨ t.bitc ≠ s.bitc) →
      t.byp = 0 ∧ t.bitc = 7
        ∧ (((strobeStart s.strobe = true ∨ (s.lock = false ∧ t.lock = true))
              ∧ t.ph = (if t.txlen = 0 then phLatch else phClklo))
          ∨ (s.ena = false ∧ t.ena = true ∧ t.ph = phIdle))

/-- R29, R102: the encoder leaves IDLE only by TRANSMIT, that is by a write-begin, or by a strobe that stands on the
internal word (no reachable state has one: log 12); it then stands at its entry point (R50). -/
def Obligations.EncoderLeavesIdleOnlyByTransmit : Prop :=
  ∀ s t : State, s.ph = phIdle → step s = .next t → t.ph ≠ phIdle →
    (strobeStart s.strobe = true ∨ (s.lock = false ∧ t.lock = true))
      ∧ t.byp = 0 ∧ t.bitc = 7 ∧ t.dly = 0 ∧ t.ph = (if t.txlen = 0 then phLatch else phClklo)

/-- R112, R113, R109: after TRANSMIT(n) the machine, left to its ticks, runs for exactly the ticks of R113, appends
exactly the events of R112 to OPLOG, ends in the state of R109, and has changed nothing else. For a TRANSMIT issued
from another phase than IDLE this rests on the model's choice (log 12). -/
def Obligations.TransmitPutsTheFrameOnThePins : Prop :=
  ∀ (n : Word) (s u : State), 1 ≤ s.cfg.holdTicks → 1 ≤ s.cfg.latchTicks → n.toNat ≤ frameLen s →
    s.moves = [] → noStrobeStands s = true → answerable s → exec (.transmit n) s = .next u →
    Sys2Proof.core.run (transmitTicks s.cfg n.toNat) u =
      .next { s with
        ph := phIdle
        byp := n
        bitc := 7
        txlen := n
        dly := 0
        clk := false
        dat := if n = 0 then s.dat else (Memory.read s.fb (n.toNat - 1)).getLsbD 0
        oplog := s.oplog ++ transmitLog s.cfg (Memory.bytes s.fb 0 n.toNat)
        t := s.t + transmitTicks s.cfg n.toNat }

/-- R120: a receiver that takes the data line at each rising edge of the clock gets, over one transmit, exactly the
bits of `FB[0..n)`, most significant first, and no other edge. The levels are the registers CLK and DAT, which are on
the lines while OE = 1 (R34). For a TRANSMIT issued from another phase than IDLE this rests on the model's choice
(log 12). -/
def Obligations.RisingEdgeReceiverGetsTheFrame : Prop :=
  ∀ (n : Word) (s u : State), 1 ≤ s.cfg.holdTicks → 1 ≤ s.cfg.latchTicks → n.toNat ≤ frameLen s →
    s.moves = [] → noStrobeStands s = true → answerable s → exec (.transmit n) s = .next u →
    risingEdgeBits (transmitTicks s.cfg n.toNat) u = sentBits (Memory.bytes s.fb 0 n.toNat)

/-- R113, R246 (a), under every schedule: while a transmit is in progress a step that is a tick brings IDLE one tick
nearer and a step that is not leaves the distance; the distance is 0 exactly at IDLE; a write-begin sets it to the
count of R113. -/
def Obligations.TransmitTimeIsExactUnderEverySchedule : Prop :=
  ∀ s : State, Inv s →
    (ticksLeft s = 0 ↔ s.ph = phIdle)
      ∧ ∀ t, step s = .next t →
        (s.ph ≠ phIdle → ticksLeft t + (t.t - s.t) = ticksLeft s ∧ (t.t = s.t ∨ t.t = s.t + 1))
          ∧ (s.ph = phIdle → t.ph ≠ phIdle → ticksLeft t = transmitTicks s.cfg (frameLen s) ∧ t.t = s.t)

/-- R114: while a transmit is in progress a step that is not a tick changes no pin, no sequencer register, no byte,
no event, nothing but the requests, the answers and the environment's moves. -/
def Obligations.GateStepsNeverDisturbATransmit : Prop :=
  ∀ s t : State, Inv s → s.ph ≠ phIdle → step s = .next t → t.t = s.t →
    t = { s with
      pend := t.pend, answers := t.answers, moves := t.moves, grant := t.grant, pinsOk := t.pinsOk,
      copyOk := t.copyOk }

/-- R111: a step that changes DAT finds the clock low and leaves it low, and when a phase did it the rising edge is
at least one whole tick away (the next phase is CLKHI); a step that raises the clock leaves DAT. -/
def Obligations.DataChangesOnlyWhileTheClockIsLow : Prop :=
  ∀ s t : State, Inv s → step s = .next t →
    (t.dat ≠ s.dat → s.clk = false ∧ t.clk = false ∧ (t.t = s.t + 1 → t.ph = phClkhi))
      ∧ (s.clk = false → t.clk = true → t.dat = s.dat ∧ s.ph = phClkhi)

/-- R116, R233: from the tick of CLKHI on the clock is high for exactly `HOLD_TICKS + 1` ticks, with the data level
of the rising edge. -/
def Obligations.ClockStaysHighThroughTheHold : Prop :=
  ∀ s : State, s.ph = phClkhi → 1 ≤ s.cfg.holdTicks → s.moves = [] → noStrobeStands s = true → answerable s →
    (∀ k, 1 ≤ k → k ≤ s.cfg.holdTicks + 1 →
      ∃ t, Sys2Proof.core.run k s = .next t ∧ t.clk = true ∧ t.dat = s.dat ∧ t.t = s.t + k)
      ∧ ∃ t, Sys2Proof.core.run (s.cfg.holdTicks + 2) s = .next t ∧ t.clk = false ∧ t.dat = s.dat

/-- R119, R231: a latch runs to its end: `LATCH_TICKS` ticks of low clock after the tick of LATCH, with the data level
unchanged, the last of which returns to IDLE and logs the completed wait. -/
def Obligations.LatchWaitRunsToItsEnd : Prop :=
  ∀ s : State, s.ph = phLatch → 1 ≤ s.cfg.latchTicks → s.moves = [] → noStrobeStands s = true → answerable s →
    (∀ k, 1 ≤ k → k ≤ s.cfg.latchTicks →
      ∃ t, Sys2Proof.core.run k s = .next t ∧ t.clk = false ∧ t.dat = s.dat ∧ t.ph = phLwait)
      ∧ Sys2Proof.core.run (s.cfg.latchTicks + 1) s =
          .next { s with
            clk := false
            dly := 0
            ph := phIdle
            oplog := s.oplog ++ [.c0, .l s.cfg.latchTicks]
            t := s.t + (s.cfg.latchTicks + 1) }

/-! ### WRITE -/

/-- R131, R193: a length that is not a multiple of 3 is a RangeError, too long or not, whatever LOCK is; nothing else
changes. -/
def Obligations.MisalignedWriteIsRangeError : Prop :=
  ∀ (len : Word) (data : List Byte) (s : State), s.ena = true → len.toNat % 3 ≠ 0 →
    exec (.write len data) s =
      .next { s with
        pend := (clearPending s s.grant).pend
        answers := s.answers ++ [(s.grant, { st := .rangeError, value := 0, data := [] })] }

/-- R132: a multiple of 3 beyond `NLED` Colors is a SizeError, whatever LOCK is; nothing else changes. A length of at
most `NLED` Colors, `len / 3 = NLED` among them, is never answered so. -/
def Obligations.TooLongWriteIsSizeError : Prop :=
  ∀ (len : Word) (data : List Byte) (s : State),
    (s.ena = true → len.toNat % 3 = 0 → s.nled.toNat < len.toNat / 3 →
      exec (.write len data) s =
        .next { s with
          pend := (clearPending s s.grant).pend
          answers := s.answers ++ [(s.grant, { st := .sizeError, value := 0, data := [] })] })
      ∧ (len.toNat / 3 ≤ s.nled.toNat → ∀ t, exec (.write len data) s = .next t →
          t.answers ≠ s.answers ++ [(s.grant, { st := .sizeError, value := 0, data := [] })])

/-- R135: with a valid length, the lock free and `copy_ok` false a WRITE is a CopyError and nothing else changes. -/
def Obligations.FailedCopyIsCopyError : Prop :=
  ∀ (len : Word) (data : List Byte) (s : State), s.ena = true → s.lock = false → s.copyOk = false →
    len.toNat % 3 = 0 → len.toNat / 3 ≤ s.nled.toNat →
    exec (.write len data) s =
      .next { s with
        pend := (clearPending s s.grant).pend
        answers := s.answers ++ [(s.grant, { st := .copyError, value := 0, data := [] })] }

/-- R134: write-begin. The frame becomes the candidate and zeros, the encoder starts on the whole frame, the port
holds the lock and stays blocked; no pin, no event, no tick. `3 * NLED` fits 32 bits (R60). -/
def Obligations.WriteBeginStoresAndStartsTheEncoder : Prop :=
  ∀ (len : Word) (data : List Byte) (s : State), s.ena = true → s.lock = false → s.copyOk = true →
    data.length = len.toNat → len.toNat % 3 = 0 → len.toNat / 3 ≤ s.nled.toNat → 3 * s.nled.toNat < 2 ^ 32 →
    ∃ t, exec (.write len data) s = .next t
      ∧ t = { s with
          lock := true
          owner := s.grant
          fb := t.fb
          strobe := t.strobe
          txlen := BitVec.ofNat 32 (3 * s.nled.toNat)
          byp := 0
          bitc := 7
          dly := 0
          ph := if s.nled = 0 then 5 else 1 }
      ∧ noStrobeStands t = true
      ∧ Memory.bytes t.fb 0 (3 * s.nled.toNat) = data ++ List.replicate (3 * s.nled.toNat - len.toNat) 0
      ∧ ∀ a, 3 * s.nled.toNat ≤ a → Memory.read t.fb a = Memory.read s.fb a

/-- R136: write-end, at the port that holds the lock, once the encoder is idle: release and `OK len`; the frame and
the pins are untouched. -/
def Obligations.WriteEndReleasesAndAnswers : Prop :=
  ∀ (len : Word) (data : List Byte) (s : State), s.ena = true → s.lock = true → s.ph = 0 → s.owner = s.grant →
    len.toNat % 3 = 0 → len.toNat / 3 ≤ s.nled.toNat →
    exec (.write len data) s =
      .next { s with
        lock := false
        pend := (clearPending s s.grant).pend
        answers := s.answers ++ [(s.grant, { st := .ok, value := len, data := [] })] }

/-- R54, R150, R170: while another transaction holds the lock, or the port's own transmit runs, a WRITE of a valid
length, a READ and a CLOSE wait: nothing changes. That a selected step which is not enabled is a step without
effect is the model's choice (log 4). -/
def Obligations.BlockedCommandsWait : Prop :=
  ∀ s : State, s.ena = true → s.lock = true →
    exec .read s = .next s
      ∧ exec .close s = .next s
      ∧ ∀ (len : Word) (data : List Byte), len.toNat % 3 = 0 → len.toNat / 3 ≤ s.nled.toNat →
          (s.ph ≠ 0 ∨ s.owner ≠ s.grant) → exec (.write len data) s = .next s

/-- R140: the next READ returns the candidate and zeros: in every later state whose frame is still the one that
write-begin left. -/
def Obligations.ReadReturnsWhatTheWriteStored : Prop :=
  ∀ (len : Word) (data : List Byte) (s u v : State), s.ena = true → s.lock = false → s.copyOk = true →
    data.length = len.toNat → len.toNat % 3 = 0 → len.toNat / 3 ≤ s.nled.toNat → 3 * s.nled.toNat < 2 ^ 32 →
    exec (.write len data) s = .next u → v.fb = u.fb → v.nled = u.nled → v.ena = true → v.lock = false →
    ∃ w, exec .read v = .next w
      ∧ w.answers = v.answers ++ [(v.grant,
          { st := .ok
            value := BitVec.ofNat 32 (3 * s.nled.toNat)
            data := data ++ List.replicate (3 * s.nled.toNat - len.toNat) 0 })]

/-- R130, R134, R136, R141: an accepted WRITE, given the lock and then its ticks, ends in an answered WRITE: the frame
is the candidate and zeros, exactly that frame went out on the pins, the lock is free, and the answer is `OK len`. -/
def Obligations.AcceptedWriteRunsToItsAnswer : Prop :=
  ∀ (s : State) (p : Port) (r : Request) (len : Word) (data : List Byte) (x y z : Bool), Inv s → s.ena = true →
    s.lock = false → answerable s → pending s p = some r → decodeRequest r = .ok (.write len data) →
    validLength s len = true →
    s.moves = .gate p x true ::
      (List.replicate (transmitTicks s.cfg (frameLen s)) .tick ++ [.gate p y z]) →
    let frame := data ++ List.replicate (frameLen s - len.toNat) 0
    ∃ t, Sys2Proof.core.run (transmitTicks s.cfg (frameLen s) + 2) s = .next t
      ∧ t.lock = false ∧ t.ph = phIdle ∧ t.ena = true ∧ t.nled = s.nled ∧ pending t p = none
      ∧ t.answers = s.answers ++ [(p, { st := .ok, value := len, data := [] })]
      ∧ frameBytes t = frame
      ∧ t.oplog = s.oplog ++ transmitLog s.cfg frame
      ∧ t.t = s.t + transmitTicks s.cfg (frameLen s)

/-- R53, R59, R142: while the lock is held no step changes the frame, NLED, ENA, OWNER or TXLEN; the lock is released
only with the encoder idle, by the answer `OK len` to the holder; and the encoder, once idle, stays idle until
then. -/
def Obligations.LockedFrameIsLeftAlone : Prop :=
  ∀ s t : State, Inv s → s.lock = true → step s = .next t →
    t.fb = s.fb ∧ t.nled = s.nled ∧ t.ena = s.ena ∧ t.owner = s.owner ∧ t.txlen = s.txlen
      ∧ (s.ph = phIdle → t.ph = phIdle)
      ∧ (t.lock = false → s.ph = phIdle
          ∧ ∃ len, t.answers = s.answers ++ [(s.owner, { st := .ok, value := len, data := [] })])

/-- R139: the completed latch waits in OPLOG, with the transmit in progress, count the write-begins: a step adds one
exactly when it takes the lock. -/
def Obligations.OneTransmitPerAcceptedWrite : Prop :=
  ∀ s t : State, Inv s → step s = .next t →
    latchCount t.oplog + inProgress t =
      latchCount s.oplog + inProgress s + (if s.lock = false ∧ t.lock = true then 1 else 0)

/-! ### READ, QUERY -/

/-- R151: READ answers with the whole frame; no register changes. `3 * NLED` fits 32 bits (R60). -/
def Obligations.ReadAnswersTheWholeFrame : Prop :=
  ∀ s : State, s.ena = true → s.lock = false → 3 * s.nled.toNat < 2 ^ 32 →
    exec .read s =
      .next { s with
        pend := (clearPending s s.grant).pend
        answers := s.answers ++ [(s.grant,
          { st := .ok
            value := BitVec.ofNat 32 (3 * s.nled.toNat)
            data := (List.range (3 * s.nled.toNat)).map (Memory.read s.fb) })] }

/-- R155: QUERY answers NLED whatever LOCK is; no register changes. -/
def Obligations.QueryAnswersTheLedCount : Prop :=
  ∀ s : State, s.ena = true →
    exec .query s =
      .next { s with
        pend := (clearPending s s.grant).pend
        answers := s.answers ++ [(s.grant, { st := .ok, value := s.nled, data := [] })] }

/-- R12, R19, R156: while the device stays open no step changes NLED, so the frame's length and every QUERY's answer
stay the same. -/
def Obligations.LedCountIsFixedWhileOpen : Prop :=
  ∀ s t : State, step s = .next t → s.ena = true → t.ena = true → t.nled = s.nled ∧ frameLen t = frameLen s

/-! ### OPEN, CLOSE -/

/-- R165, R166: OPEN with the pins obtained and a count that fits gives a fresh device; without a configuration value
the count is 20. OWNER, the other ports' requests, OPLOG and T are untouched. -/
def Obligations.OpenGivesAFreshDevice : Prop :=
  ∀ (cfgValue : Option Word) (n : Word) (s : State), (cfgValue = some n ∨ (cfgValue = none ∧ n = 20)) →
    s.ena = false → s.pinsOk = true → n.toNat ≤ s.cfg.maxLeds →
    ∃ t, exec (.openDev cfgValue) s = .next t
      ∧ t = { s with
          nled := n
          fb := t.fb
          clk := false
          dat := false
          oe := true
          lock := false
          ph := 0
          byp := 0
          bitc := 7
          txlen := 0
          dly := 0
          ena := true
          pend := (clearPending s s.grant).pend
          answers := s.answers ++ [(s.grant, { st := .ok, value := 0, data := [] })] }
      ∧ Memory.bytes t.fb 0 (3 * n.toNat) = List.replicate (3 * n.toNat) 0

/-- R167: OPEN without the pins or with a count that does not fit is an InitError and nothing else changes. -/
def Obligations.OpenFailureIsInitError : Prop :=
  ∀ (cfgValue : Option Word) (n : Word) (s : State), (cfgValue = some n ∨ (cfgValue = none ∧ n = 20)) →
    s.ena = false → (s.pinsOk = false ∨ s.cfg.maxLeds < n.toNat) →
    exec (.openDev cfgValue) s =
      .next { s with
        pend := (clearPending s s.grant).pend
        answers := s.answers ++ [(s.grant, { st := .initError, value := 0, data := [] })] }

/-- R170: CLOSE, the lock free: ENA and OE to 0, NLED and FB any values (log 7), OK; the sequencer, CLK, DAT, OPLOG and
T keep their values. -/
def Obligations.CloseReleasesPinsAndBuffer : Prop :=
  ∀ s : State, s.ena = true → s.lock = false →
    ∃ t, exec .close s = .next t
      ∧ t = { s with
          ena := false
          oe := false
          nled := t.nled
          fb := t.fb
          draws := t.draws
          pend := (clearPending s s.grant).pend
          answers := s.answers ++ [(s.grant, { st := .ok, value := 0, data := [] })] }

/-- R171: CLOSE on a closed device answers OK and nothing else changes. -/
def Obligations.CloseOnAClosedDeviceDoesNothing : Prop :=
  ∀ s : State, s.ena = false →
    exec .close s =
      .next { s with
        pend := (clearPending s s.grant).pend
        answers := s.answers ++ [(s.grant, { st := .ok, value := 0, data := [] })] }

/-! ### The step, the moves, errors, ports -/

/-- A step runs the instruction it fetches: a standing strobe first, else on a tick the phase that PH selects with T
counted up (R100), else on a gate move the command pending at the port (R58). -/
def Obligations.StepRunsTheFetchedInstruction : Prop :=
  ∀ s : State, answerable s →
    (strobeStart s.strobe = true → step s = exec (.transmit (strobeLen s.strobe)) { s with strobe := 0 })
      ∧ (strobeStart s.strobe = false → ticksNext s = true → ∀ i, decodePhase s.ph = .ok i →
          step s = exec i { s with moves := s.moves.tail, t := s.t + 1 })
      ∧ (strobeStart s.strobe = false → ∀ p x y ms r i, s.moves = .gate p x y :: ms → pending s p = some r →
          decodeRequest r = .ok i → step s = exec i { s with moves := ms, grant := p, pinsOk := x, copyOk := y })

/-- R63, R31: a submit at a free port sets that port's request and nothing else. -/
def Obligations.SubmitFillsAFreePort : Prop :=
  ∀ (s : State) (p : Port) (r : Request) (ms : List Move), answerable s → noStrobeStands s = true →
    s.moves = .submit p r :: ms → pending s p = none →
    ∃ t, step s = .next t
      ∧ t = { s with moves := ms, pend := t.pend }
      ∧ pending t p = some r
      ∧ ∀ q, q ≠ p → pending t q = pending s q

/-- The model's choice for a move that is not enabled (log 4): a submit at a port that has a request pending (R31) and
a gate move at a port that has none leave everything but the moves. -/
def Obligations.MovesNotEnabledChangeNothing : Prop :=
  ∀ (s : State) (p : Port) (ms : List Move), answerable s → noStrobeStands s = true →
    (∀ r r', s.moves = .submit p r :: ms → pending s p = some r' → step s = .next { s with moves := ms })
      ∧ ∀ x y, s.moves = .gate p x y :: ms → pending s p = none → step s = .next { s with moves := ms }

/-- R35, R58, R33, R28: T counts the ticks and nothing else; only a tick appends to OPLOG, and OPLOG is never cleared;
no step changes the parameters. -/
def Obligations.OnlyTicksMoveTimeAndTheLog : Prop :=
  ∀ s t : State, step s = .next t →
    t.cfg = s.cfg
      ∧ t.t = s.t + (if noStrobeStands s = true ∧ ticksNext s = true then 1 else 0)
      ∧ (∃ es, t.oplog = s.oplog ++ es)
      ∧ (t.t = s.t → t.oplog = s.oplog)

/-- R195, R138, R167: a step that delivers an error delivers it with value 0 and no data, frees that port, and changes
no register. -/
def Obligations.ErrorsChangeNothingElse : Prop :=
  ∀ (s t : State) (p : Port) (r : Response), step s = .next t → t.answers = s.answers ++ [(p, r)] → r.st ≠ .ok →
    r.value = 0 ∧ r.data = [] ∧ pending t p = none ∧ (∀ q, q ≠ p → pending t q = pending s q)
      ∧ t = { s with
          pend := t.pend, answers := t.answers, moves := t.moves, grant := t.grant, pinsOk := t.pinsOk,
          copyOk := t.copyOk }

/-- R77, R187: a step delivers at most one response, to a port that had a request pending and has none after it, and
never an IndexError. -/
def Obligations.OneAnswerPerRequest : Prop :=
  ∀ s t : State, step s = .next t →
    t.answers = s.answers
      ∨ ∃ p r, t.answers = s.answers ++ [(p, r)] ∧ pending s p ≠ none ∧ pending t p = none ∧ r.st ≠ .indexError

/-- R194, R200: a gate step at one port changes no other port's request and answers no other port. -/
def Obligations.OtherPortsAreNotDisturbed : Prop :=
  ∀ (s t : State) (p : Port) (x y : Bool) (ms : List Move), noStrobeStands s = true → s.moves = .gate p x y :: ms →
    step s = .next t →
    (∀ q, q ≠ p → pending t q = pending s q)
      ∧ ∃ as, t.answers = s.answers ++ as ∧ ∀ a ∈ as, a.1 = p

/-- R56: when the lock is free, whichever port has a request the next step may be its: there is a move that answers
it or gives it the lock. -/
def Obligations.AnyWaitingPortMayBeNext : Prop :=
  ∀ (s : State) (p : Port) (r : Request), Inv s → answerable s → s.lock = false → pending s p = some r →
    ∃ m t, step { s with moves := m :: s.moves } = .next t
      ∧ (pending t p = none ∨ (t.lock = true ∧ t.owner = p))

/-- R245: at rest, with no move chosen, a step changes T and nothing else. -/
def Obligations.RestOnlyCountsTime : Prop :=
  ∀ s : State, atRest s = true → s.moves = [] → noStrobeStands s = true → step s = .next { s with t := s.t + 1 }

/-! ### Reset and the invariant -/

/-- R220: the registers at power-on, for every choice of the parameters and for the machine's reset state. NLED, FB
and OWNER are unspecified there and not named here (log 6). -/
def Obligations.PowerOnRegisterValues : Prop :=
  ∀ s : State, (s = Sys2Proof.core.reset ∨ ∃ c, s = State.powerOn c) →
    s.ena = false ∧ s.oe = false ∧ s.lock = false ∧ s.ph = 0 ∧ s.byp = 0 ∧ s.bitc = 7 ∧ s.txlen = 0 ∧ s.dly = 0
      ∧ s.clk = false ∧ s.dat = false ∧ (∀ p, pending s p = none) ∧ s.oplog = [] ∧ s.t = 0

/-- R26 at power-on, for all parameters that meet their constraints; the reference parameters do. -/
def Obligations.PowerOnMeetsTheInvariant : Prop :=
  (∀ c : Config, c.ok = true → Inv (State.powerOn c)) ∧ Inv State.reset

/-- R26: every step keeps the invariant, under every schedule. -/
def Obligations.StepKeepsTheInvariant : Prop := ∀ s t : State, Inv s → step s = .next t → Inv t

/-- R26 (e), R50: from a state that meets the invariant no step faults, so no reachable state names a byte outside the
frame. -/
def Obligations.InvariantStatesNeverFault : Prop := ∀ (s : State) (f : Fault), Inv s → step s ≠ .fault f
end

