-- ==== Sys2Proof/Laws/Decode.lean ====
section
/-! SUPPORT. The laws of the words: each field read back from the word it was put in, and which instructions each
channel decodes to. -/

namespace Sys2Proof

theorem mkHeader_toNat (arg : Word) (c : Bool) (op : BitVec 3) :
    (mkHeader arg c op).toNat = op.toNat + 8 * c.toNat + 16 * arg.toNat := by
  have h1 := arg.isLt
  have h2 := op.isLt
  have h3 := c.toNat_lt
  simp only [mkHeader, BitVec.toNat_ofNat]
  omega

theorem headerOp_toNat (h : Header) : (headerOp h).toNat = h.toNat % 8 := by
  simp [headerOp, BitVec.extractLsb'_toNat]

theorem headerArg_toNat (h : Header) : (headerArg h).toNat = h.toNat / 16 := by
  have hl := h.isLt
  simp only [headerArg, BitVec.extractLsb'_toNat, Nat.shiftRight_eq_div_pow]
  omega

theorem headerHasCfg_eq (h : Header) : headerHasCfg h = decide (h.toNat / 8 % 2 = 1) := by
  simp [headerHasCfg, BitVec.getLsbD, Nat.testBit_eq_decide_div_mod_eq]

theorem strobeStart_eq (w : StrobeWord) : strobeStart w = decide (w.toNat % 2 = 1) := by
  simp [strobeStart, BitVec.getLsbD, Nat.testBit_eq_decide_div_mod_eq]

theorem strobeLen_toNat (w : StrobeWord) : (strobeLen w).toNat = w.toNat / 2 := by
  have hl := w.isLt
  simp only [strobeLen, BitVec.extractLsb'_toNat, Nat.shiftRight_eq_div_pow]
  omega

theorem mkStrobe_toNat (n : Word) : (mkStrobe n).toNat = 1 + 2 * n.toNat := by
  have h1 := n.isLt
  simp only [mkStrobe, BitVec.toNat_ofNat]
  omega

@[simp] theorem headerOp_mkHeader (arg : Word) (c : Bool) (op : BitVec 3) : headerOp (mkHeader arg c op) = op := by
  have h2 := op.isLt
  apply BitVec.eq_of_toNat_eq
  rw [headerOp_toNat, mkHeader_toNat]
  omega

@[simp] theorem headerHasCfg_mkHeader (arg : Word) (c : Bool) (op : BitVec 3) :
    headerHasCfg (mkHeader arg c op) = c := by
  have h2 := op.isLt
  rw [headerHasCfg_eq, mkHeader_toNat]
  cases c <;> simp only [Bool.toNat_true, Bool.toNat_false, decide_eq_true_eq, decide_eq_false_iff_not] <;> omega

@[simp] theorem headerArg_mkHeader (arg : Word) (c : Bool) (op : BitVec 3) :
    headerArg (mkHeader arg c op) = arg := by
  have h2 := op.isLt
  have h3 := c.toNat_lt
  apply BitVec.eq_of_toNat_eq
  rw [headerArg_toNat, mkHeader_toNat]
  omega

@[simp] theorem strobeStart_mkStrobe (n : Word) : strobeStart (mkStrobe n) = true := by
  rw [strobeStart_eq, mkStrobe_toNat]
  simp only [decide_eq_true_eq]
  omega

@[simp] theorem strobeLen_mkStrobe (n : Word) : strobeLen (mkStrobe n) = n := by
  apply BitVec.eq_of_toNat_eq
  rw [strobeLen_toNat, mkStrobe_toNat]
  omega

@[simp] theorem strobeStart_noStrobe : strobeStart noStrobe = false := by decide

theorem decodeBare_eq_ok {i j : Instr} {d : List Byte} (h : decodeBare i d = .ok j) : j = i ∧ d = [] := by
  cases d with
  | nil =>
    simp only [decodeBare, Except.ok.injEq] at h
    exact ⟨h.symm, rfl⟩
  | cons a t => simp [decodeBare] at h

/-- What a request record decodes to, with what the record then is. -/
theorem decodeRequest_eq_ok {r : Request} {i : Instr} (h : decodeRequest r = .ok i) :
    ((headerOp r.hdr).toNat = 0 ∧ r.data = []
        ∧ i = .openDev (if headerHasCfg r.hdr then some (headerArg r.hdr) else none)) ∨
    ((headerOp r.hdr).toNat = 1 ∧ i = .write (headerArg r.hdr) r.data
        ∧ r.data.length = (headerArg r.hdr).toNat) ∨
    ((headerOp r.hdr).toNat = 2 ∧ r.data = [] ∧ i = .read) ∨
    ((headerOp r.hdr).toNat = 3 ∧ r.data = [] ∧ i = .query) ∨
    ((headerOp r.hdr).toNat = 4 ∧ r.data = [] ∧ i = .close) := by
  unfold decodeRequest at h
  split at h
  · obtain ⟨h1, h2⟩ := decodeBare_eq_ok h
    exact .inl ⟨‹_›, h2, h1⟩
  · split_ifs at h with hl
    simp only [Except.ok.injEq] at h
    exact .inr (.inl ⟨‹_›, h.symm, hl⟩)
  · obtain ⟨h1, h2⟩ := decodeBare_eq_ok h
    exact .inr (.inr (.inl ⟨‹_›, h2, h1⟩))
  · obtain ⟨h1, h2⟩ := decodeBare_eq_ok h
    exact .inr (.inr (.inr (.inl ⟨‹_›, h2, h1⟩)))
  · obtain ⟨h1, h2⟩ := decodeBare_eq_ok h
    exact .inr (.inr (.inr (.inr ⟨‹_›, h2, h1⟩)))
  · simp at h

/-- A request port gives only commands, and well-formed ones (R72). -/
theorem decodeRequest_command {r : Request} {i : Instr} (h : decodeRequest r = .ok i) :
    i.isCommand = true ∧ i.wf = true := by
  rcases decodeRequest_eq_ok h with ⟨_, _, rfl⟩ | ⟨_, rfl, hl⟩ | ⟨_, _, rfl⟩ | ⟨_, _, rfl⟩ | ⟨_, _, rfl⟩ <;>
    simp_all [Instr.isCommand, Instr.wf]

/-- The internal word gives only TRANSMIT. -/
theorem decodeStrobe_eq_ok {w : StrobeWord} {i : Instr} (h : decodeStrobe w = .ok i) :
    strobeStart w = true ∧ i = .transmit (strobeLen w) := by
  unfold decodeStrobe at h
  split_ifs at h with hs
  simp only [Except.ok.injEq] at h
  exact ⟨hs, h.symm⟩

/-- PH gives only phases. -/
theorem decodePhase_isPhase {p : Phase} {i : Instr} (h : decodePhase p = .ok i) : i.isPhase = true := by
  unfold decodePhase at h
  split at h <;> simp only [Except.ok.injEq, reduceCtorEq] at h <;> subst h <;> rfl

/-- PH is one of eight numbers. -/
theorem phase_cases (p : Phase) : p = 0 ∨ p = 1 ∨ p = 2 ∨ p = 3 ∨ p = 4 ∨ p = 5 ∨ p = 6 ∨ p = 7 := by
  revert p
  decide

end Sys2Proof
end

