-- ==== Sys2Proof/Laws/KeyValue.lean ====
section
/-! SUPPORT. The laws of key and value lists: what `kvGet` gives after `kvPut` and `kvDrop`, and that both keep the
keys strictly rising. -/

namespace Sys2Proof.Machine

variable {α : Type}

@[simp] theorem kvGet_nil (k : Nat) : kvGet k ([] : List (Nat × α)) = none := rfl

theorem kvGet_put (j k : Nat) (v : α) (m : List (Nat × α)) :
    kvGet j (kvPut k v m) = if j = k then some v else kvGet j m := by
  induction m with
  | nil => simp [kvPut, kvGet, eq_comm]
  | cons c t ih =>
    simp only [kvPut, kvGet]
    split_ifs with h1 h2 h3 h4 <;> simp_all [kvGet] <;> omega

theorem kvGet_drop (p : Nat → Bool) (j : Nat) (m : List (Nat × α)) :
    kvGet j (kvDrop p m) = if p j then none else kvGet j m := by
  induction m with
  | nil => simp [kvDrop]
  | cons c t ih =>
    simp only [kvDrop, List.filter_cons, kvGet] at ih ⊢
    by_cases hp : p c.1 <;> by_cases hj : c.1 = j <;> simp_all [kvGet]

theorem kvGet_eq_some_mem {k : Nat} {v : α} {m : List (Nat × α)} (h : kvGet k m = some v) : (k, v) ∈ m := by
  induction m with
  | nil => simp at h
  | cons c t ih =>
    simp only [kvGet] at h
    split_ifs at h with hc
    · obtain ⟨a, b⟩ := c
      simp_all
    · exact List.mem_cons_of_mem _ (ih h)

theorem kvAbove_iff {lo : Nat} {m : List (Nat × α)} : kvAbove lo m = true ↔ ∀ c ∈ m, lo < c.1 := by
  simp [kvAbove]

theorem kvSorted_cons {c : Nat × α} {t : List (Nat × α)} :
    kvSorted (c :: t) = true ↔ (∀ d ∈ t, c.1 < d.1) ∧ kvSorted t = true := by
  simp [kvSorted, kvAbove_iff]

theorem mem_kvPut {k : Nat} {v : α} {m : List (Nat × α)} {c : Nat × α} (h : c ∈ kvPut k v m) :
    c = (k, v) ∨ c ∈ m := by
  induction m with
  | nil => simpa [kvPut] using h
  | cons d t ih =>
    simp only [kvPut] at h
    split_ifs at h <;> simp only [List.mem_cons] at h ⊢
    · tauto
    · tauto
    · rcases h with h | h
      · exact .inr (.inl h)
      · rcases ih h with h | h <;> tauto

theorem kvSorted_put {k : Nat} {v : α} {m : List (Nat × α)} (h : kvSorted m = true) :
    kvSorted (kvPut k v m) = true := by
  induction m with
  | nil => simp [kvPut, kvSorted, kvAbove]
  | cons d t ih =>
    obtain ⟨hd, ht⟩ := kvSorted_cons.1 h
    simp only [kvPut]
    split_ifs with h1 h2
    · refine kvSorted_cons.2 ⟨fun e he => ?_, h⟩
      rcases List.mem_cons.1 he with rfl | he
      · exact h1
      · exact h1.trans (hd e he)
    · exact kvSorted_cons.2 ⟨fun e he => h2 ▸ hd e he, ht⟩
    · refine kvSorted_cons.2 ⟨fun e he => ?_, ih ht⟩
      rcases mem_kvPut he with rfl | he
      · simp only
        omega
      · exact hd e he

theorem kvSorted_drop (p : Nat → Bool) {m : List (Nat × α)} (h : kvSorted m = true) :
    kvSorted (kvDrop p m) = true := by
  induction m with
  | nil => rfl
  | cons d t ih =>
    obtain ⟨hd, ht⟩ := kvSorted_cons.1 h
    simp only [kvDrop, List.filter_cons] at ih ⊢
    split_ifs
    · exact kvSorted_cons.2 ⟨fun e he => hd e (List.mem_filter.1 he).1, ih ht⟩
    · exact ih ht

end Sys2Proof.Machine
end

