-- ==== Sys2Proof/Laws/Memory.lean ====
section
/-! SUPPORT. The laws of the frame buffer: a read after a write, and that every operation keeps the canonical form
and the bound on the listed indices. -/

namespace Sys2Proof.Machine

@[simp] theorem Memory.read_nil (a : Nat) : Memory.read [] a = 0 := rfl

theorem Memory.read_write (m : List Host.Cell) (a i : Nat) (b : Byte) :
    Memory.read (Memory.write m a b) i = if i = a then b else Memory.read m i := by
  unfold Memory.read Memory.write
  split_ifs with h1 h2 h2 <;> simp [kvGet_put, kvGet_drop, h1, h2, Memory.unlisted]

theorem Memory.read_writeBytes (bs : List Byte) (m : List Host.Cell) (a i : Nat) :
    Memory.read (Memory.writeBytes m a bs) i =
      if a ≤ i ∧ i < a + bs.length then bs.getD (i - a) 0 else Memory.read m i := by
  induction bs generalizing m a with
  | nil => simp [Memory.writeBytes]
  | cons b t ih =>
    rw [Memory.writeBytes, ih, Memory.read_write]
    by_cases h : i = a
    · subst h
      simp
    · by_cases h2 : a + 1 ≤ i ∧ i < a + 1 + t.length
      · have e : i - a = i - (a + 1) + 1 := by omega
        rw [if_pos h2, if_pos (by simp only [List.length_cons]; omega), e]
        simp
      · rw [if_neg h2, if_neg h, if_neg (by simp only [List.length_cons]; omega)]

theorem Memory.read_zeroFill (m : List Host.Cell) (lo hi i : Nat) :
    Memory.read (Memory.zeroFill m lo hi) i = if lo ≤ i ∧ i < hi then 0 else Memory.read m i := by
  unfold Memory.read Memory.zeroFill
  rw [kvGet_drop]
  by_cases h : lo ≤ i ∧ i < hi <;> simp [h, Memory.unlisted]

theorem Memory.bytes_eq_map (m : List Host.Cell) (a n : Nat) :
    Memory.bytes m a n = (List.range n).map fun i => Memory.read m (a + i) := by
  induction n generalizing a with
  | zero => rfl
  | succ k ih =>
    simp only [Memory.bytes, ih, List.range_succ_eq_map, List.map_cons, List.map_map]
    congr 1
    refine List.map_congr_left fun i _ => ?_
    simp [Nat.add_assoc, Nat.add_comm 1]

@[simp] theorem Memory.bytes_length (m : List Host.Cell) (a n : Nat) : (Memory.bytes m a n).length = n := by
  simp [Memory.bytes_eq_map]

theorem Memory.wf_iff {m : List Host.Cell} :
    Memory.wf m = true ↔ kvSorted m = true ∧ ∀ c ∈ m, c.2 ≠ Memory.unlisted := by
  simp [Memory.wf]

theorem Memory.within_iff {n : Nat} {m : List Host.Cell} : Memory.within n m = true ↔ ∀ c ∈ m, c.1 < n := by
  simp [Memory.within]

theorem Memory.wf_drop (p : Nat → Bool) {m : List Host.Cell} (h : Memory.wf m = true) :
    Memory.wf (kvDrop p m) = true :=
  have h := Memory.wf_iff.1 h
  Memory.wf_iff.2 ⟨kvSorted_drop p h.1, fun c hc => h.2 c (List.mem_filter.1 hc).1⟩

theorem Memory.wf_write {m : List Host.Cell} (a : Nat) (b : Byte) (h : Memory.wf m = true) :
    Memory.wf (Memory.write m a b) = true := by
  unfold Memory.write
  split_ifs with hb
  · exact Memory.wf_drop _ h
  · have h := Memory.wf_iff.1 h
    refine Memory.wf_iff.2 ⟨kvSorted_put h.1, fun c hc => ?_⟩
    rcases mem_kvPut hc with rfl | hc
    · exact hb
    · exact h.2 c hc

theorem Memory.wf_writeBytes (bs : List Byte) {m : List Host.Cell} (a : Nat) (h : Memory.wf m = true) :
    Memory.wf (Memory.writeBytes m a bs) = true := by
  induction bs generalizing m a with
  | nil => exact h
  | cons b t ih => exact ih _ (Memory.wf_write a b h)

theorem Memory.wf_zeroFill {m : List Host.Cell} (lo hi : Nat) (h : Memory.wf m = true) :
    Memory.wf (Memory.zeroFill m lo hi) = true := Memory.wf_drop _ h

theorem Memory.wf_ofBytes (bs : List Byte) : Memory.wf (Memory.ofBytes bs) = true :=
  Memory.wf_writeBytes bs 0 rfl

theorem Memory.within_drop (p : Nat → Bool) {n : Nat} {m : List Host.Cell} (h : Memory.within n m = true) :
    Memory.within n (kvDrop p m) = true :=
  Memory.within_iff.2 fun c hc => Memory.within_iff.1 h c (List.mem_filter.1 hc).1

theorem Memory.within_writeBytes (bs : List Byte) {n : Nat} {m : List Host.Cell} (a : Nat)
    (hn : a + bs.length ≤ n) (h : Memory.within n m = true) : Memory.within n (Memory.writeBytes m a bs) = true := by
  induction bs generalizing m a with
  | nil => exact h
  | cons b t ih =>
    simp only [List.length_cons] at hn
    refine ih _ (by omega) ?_
    unfold Memory.write
    split_ifs
    · exact Memory.within_drop _ h
    · refine Memory.within_iff.2 fun c hc => ?_
      rcases mem_kvPut hc with rfl | hc
      · simp only
        omega
      · exact Memory.within_iff.1 h c hc

theorem Memory.within_zeroFill (lo hi : Nat) {n : Nat} {m : List Host.Cell} (h : Memory.within n m = true) :
    Memory.within n (Memory.zeroFill m lo hi) = true := Memory.within_drop _ h

theorem Memory.within_ofBytes {bs : List Byte} {n : Nat} (h : bs.length ≤ n) :
    Memory.within n (Memory.ofBytes bs) = true := Memory.within_writeBytes bs 0 (by omega) rfl

end Sys2Proof.Machine
end

