-- ==== Sys2Proof/Laws/State.lean ====
section
/-! SUPPORT. One lemma for each field after each shared update of State, true by rfl: later proofs read a field off
an update without unfolding it. -/

namespace Sys2Proof.Machine

/-! ### clearPending -/

@[simp] theorem clearPending_ena (s : State) (p : Port) : (clearPending s p).ena = s.ena := rfl
@[simp] theorem clearPending_nled (s : State) (p : Port) : (clearPending s p).nled = s.nled := rfl
@[simp] theorem clearPending_lock (s : State) (p : Port) : (clearPending s p).lock = s.lock := rfl
@[simp] theorem clearPending_owner (s : State) (p : Port) : (clearPending s p).owner = s.owner := rfl
@[simp] theorem clearPending_pend (s : State) (p : Port) : (clearPending s p).pend = kvDrop (fun k => k == p) s.pend := rfl
@[simp] theorem clearPending_fb (s : State) (p : Port) : (clearPending s p).fb = s.fb := rfl
@[simp] theorem clearPending_clk (s : State) (p : Port) : (clearPending s p).clk = s.clk := rfl
@[simp] theorem clearPending_dat (s : State) (p : Port) : (clearPending s p).dat = s.dat := rfl
@[simp] theorem clearPending_oe (s : State) (p : Port) : (clearPending s p).oe = s.oe := rfl
@[simp] theorem clearPending_ph (s : State) (p : Port) : (clearPending s p).ph = s.ph := rfl
@[simp] theorem clearPending_byp (s : State) (p : Port) : (clearPending s p).byp = s.byp := rfl
@[simp] theorem clearPending_bitc (s : State) (p : Port) : (clearPending s p).bitc = s.bitc := rfl
@[simp] theorem clearPending_txlen (s : State) (p : Port) : (clearPending s p).txlen = s.txlen := rfl
@[simp] theorem clearPending_dly (s : State) (p : Port) : (clearPending s p).dly = s.dly := rfl
@[simp] theorem clearPending_oplog (s : State) (p : Port) : (clearPending s p).oplog = s.oplog := rfl
@[simp] theorem clearPending_t (s : State) (p : Port) : (clearPending s p).t = s.t := rfl
@[simp] theorem clearPending_cfg (s : State) (p : Port) : (clearPending s p).cfg = s.cfg := rfl
@[simp] theorem clearPending_strobe (s : State) (p : Port) : (clearPending s p).strobe = s.strobe := rfl
@[simp] theorem clearPending_moves (s : State) (p : Port) : (clearPending s p).moves = s.moves := rfl
@[simp] theorem clearPending_grant (s : State) (p : Port) : (clearPending s p).grant = s.grant := rfl
@[simp] theorem clearPending_pinsOk (s : State) (p : Port) : (clearPending s p).pinsOk = s.pinsOk := rfl
@[simp] theorem clearPending_copyOk (s : State) (p : Port) : (clearPending s p).copyOk = s.copyOk := rfl
@[simp] theorem clearPending_answers (s : State) (p : Port) : (clearPending s p).answers = s.answers := rfl
@[simp] theorem clearPending_draws (s : State) (p : Port) : (clearPending s p).draws = s.draws := rfl

/-! ### respond -/

@[simp] theorem respond_ena (s : State) (st : Status) (v : Word) (d : List Byte) : (respond s st v d).ena = s.ena := rfl
@[simp] theorem respond_nled (s : State) (st : Status) (v : Word) (d : List Byte) : (respond s st v d).nled = s.nled := rfl
@[simp] theorem respond_lock (s : State) (st : Status) (v : Word) (d : List Byte) : (respond s st v d).lock = s.lock := rfl
@[simp] theorem respond_owner (s : State) (st : Status) (v : Word) (d : List Byte) : (respond s st v d).owner = s.owner := rfl
@[simp] theorem respond_pend (s : State) (st : Status) (v : Word) (d : List Byte) : (respond s st v d).pend = kvDrop (fun k => k == s.grant) s.pend := rfl
@[simp] theorem respond_fb (s : State) (st : Status) (v : Word) (d : List Byte) : (respond s st v d).fb = s.fb := rfl
@[simp] theorem respond_clk (s : State) (st : Status) (v : Word) (d : List Byte) : (respond s st v d).clk = s.clk := rfl
@[simp] theorem respond_dat (s : State) (st : Status) (v : Word) (d : List Byte) : (respond s st v d).dat = s.dat := rfl
@[simp] theorem respond_oe (s : State) (st : Status) (v : Word) (d : List Byte) : (respond s st v d).oe = s.oe := rfl
@[simp] theorem respond_ph (s : State) (st : Status) (v : Word) (d : List Byte) : (respond s st v d).ph = s.ph := rfl
@[simp] theorem respond_byp (s : State) (st : Status) (v : Word) (d : List Byte) : (respond s st v d).byp = s.byp := rfl
@[simp] theorem respond_bitc (s : State) (st : Status) (v : Word) (d : List Byte) : (respond s st v d).bitc = s.bitc := rfl
@[simp] theorem respond_txlen (s : State) (st : Status) (v : Word) (d : List Byte) : (respond s st v d).txlen = s.txlen := rfl
@[simp] theorem respond_dly (s : State) (st : Status) (v : Word) (d : List Byte) : (respond s st v d).dly = s.dly := rfl
@[simp] theorem respond_oplog (s : State) (st : Status) (v : Word) (d : List Byte) : (respond s st v d).oplog = s.oplog := rfl
@[simp] theorem respond_t (s : State) (st : Status) (v : Word) (d : List Byte) : (respond s st v d).t = s.t := rfl
@[simp] theorem respond_cfg (s : State) (st : Status) (v : Word) (d : List Byte) : (respond s st v d).cfg = s.cfg := rfl
@[simp] theorem respond_strobe (s : State) (st : Status) (v : Word) (d : List Byte) : (respond s st v d).strobe = s.strobe := rfl
@[simp] theorem respond_moves (s : State) (st : Status) (v : Word) (d : List Byte) : (respond s st v d).moves = s.moves := rfl
@[simp] theorem respond_grant (s : State) (st : Status) (v : Word) (d : List Byte) : (respond s st v d).grant = s.grant := rfl
@[simp] theorem respond_pinsOk (s : State) (st : Status) (v : Word) (d : List Byte) : (respond s st v d).pinsOk = s.pinsOk := rfl
@[simp] theorem respond_copyOk (s : State) (st : Status) (v : Word) (d : List Byte) : (respond s st v d).copyOk = s.copyOk := rfl
@[simp] theorem respond_answers (s : State) (st : Status) (v : Word) (d : List Byte) : (respond s st v d).answers = s.answers ++ [(s.grant, { st := st, value := v, data := d })] := rfl
@[simp] theorem respond_draws (s : State) (st : Status) (v : Word) (d : List Byte) : (respond s st v d).draws = s.draws := rfl

/-! ### logEvent -/

@[simp] theorem logEvent_ena (s : State) (e : Event) : (logEvent s e).ena = s.ena := rfl
@[simp] theorem logEvent_nled (s : State) (e : Event) : (logEvent s e).nled = s.nled := rfl
@[simp] theorem logEvent_lock (s : State) (e : Event) : (logEvent s e).lock = s.lock := rfl
@[simp] theorem logEvent_owner (s : State) (e : Event) : (logEvent s e).owner = s.owner := rfl
@[simp] theorem logEvent_pend (s : State) (e : Event) : (logEvent s e).pend = s.pend := rfl
@[simp] theorem logEvent_fb (s : State) (e : Event) : (logEvent s e).fb = s.fb := rfl
@[simp] theorem logEvent_clk (s : State) (e : Event) : (logEvent s e).clk = s.clk := rfl
@[simp] theorem logEvent_dat (s : State) (e : Event) : (logEvent s e).dat = s.dat := rfl
@[simp] theorem logEvent_oe (s : State) (e : Event) : (logEvent s e).oe = s.oe := rfl
@[simp] theorem logEvent_ph (s : State) (e : Event) : (logEvent s e).ph = s.ph := rfl
@[simp] theorem logEvent_byp (s : State) (e : Event) : (logEvent s e).byp = s.byp := rfl
@[simp] theorem logEvent_bitc (s : State) (e : Event) : (logEvent s e).bitc = s.bitc := rfl
@[simp] theorem logEvent_txlen (s : State) (e : Event) : (logEvent s e).txlen = s.txlen := rfl
@[simp] theorem logEvent_dly (s : State) (e : Event) : (logEvent s e).dly = s.dly := rfl
@[simp] theorem logEvent_oplog (s : State) (e : Event) : (logEvent s e).oplog = s.oplog ++ [e] := rfl
@[simp] theorem logEvent_t (s : State) (e : Event) : (logEvent s e).t = s.t := rfl
@[simp] theorem logEvent_cfg (s : State) (e : Event) : (logEvent s e).cfg = s.cfg := rfl
@[simp] theorem logEvent_strobe (s : State) (e : Event) : (logEvent s e).strobe = s.strobe := rfl
@[simp] theorem logEvent_moves (s : State) (e : Event) : (logEvent s e).moves = s.moves := rfl
@[simp] theorem logEvent_grant (s : State) (e : Event) : (logEvent s e).grant = s.grant := rfl
@[simp] theorem logEvent_pinsOk (s : State) (e : Event) : (logEvent s e).pinsOk = s.pinsOk := rfl
@[simp] theorem logEvent_copyOk (s : State) (e : Event) : (logEvent s e).copyOk = s.copyOk := rfl
@[simp] theorem logEvent_answers (s : State) (e : Event) : (logEvent s e).answers = s.answers := rfl
@[simp] theorem logEvent_draws (s : State) (e : Event) : (logEvent s e).draws = s.draws := rfl

/-! ### setClock -/

@[simp] theorem setClock_ena (s : State) (b : Bool) : (setClock s b).ena = s.ena := rfl
@[simp] theorem setClock_nled (s : State) (b : Bool) : (setClock s b).nled = s.nled := rfl
@[simp] theorem setClock_lock (s : State) (b : Bool) : (setClock s b).lock = s.lock := rfl
@[simp] theorem setClock_owner (s : State) (b : Bool) : (setClock s b).owner = s.owner := rfl
@[simp] theorem setClock_pend (s : State) (b : Bool) : (setClock s b).pend = s.pend := rfl
@[simp] theorem setClock_fb (s : State) (b : Bool) : (setClock s b).fb = s.fb := rfl
@[simp] theorem setClock_clk (s : State) (b : Bool) : (setClock s b).clk = b := rfl
@[simp] theorem setClock_dat (s : State) (b : Bool) : (setClock s b).dat = s.dat := rfl
@[simp] theorem setClock_oe (s : State) (b : Bool) : (setClock s b).oe = s.oe := rfl
@[simp] theorem setClock_ph (s : State) (b : Bool) : (setClock s b).ph = s.ph := rfl
@[simp] theorem setClock_byp (s : State) (b : Bool) : (setClock s b).byp = s.byp := rfl
@[simp] theorem setClock_bitc (s : State) (b : Bool) : (setClock s b).bitc = s.bitc := rfl
@[simp] theorem setClock_txlen (s : State) (b : Bool) : (setClock s b).txlen = s.txlen := rfl
@[simp] theorem setClock_dly (s : State) (b : Bool) : (setClock s b).dly = s.dly := rfl
@[simp] theorem setClock_oplog (s : State) (b : Bool) : (setClock s b).oplog = s.oplog ++ [if b then .c1 else .c0] := rfl
@[simp] theorem setClock_t (s : State) (b : Bool) : (setClock s b).t = s.t := rfl
@[simp] theorem setClock_cfg (s : State) (b : Bool) : (setClock s b).cfg = s.cfg := rfl
@[simp] theorem setClock_strobe (s : State) (b : Bool) : (setClock s b).strobe = s.strobe := rfl
@[simp] theorem setClock_moves (s : State) (b : Bool) : (setClock s b).moves = s.moves := rfl
@[simp] theorem setClock_grant (s : State) (b : Bool) : (setClock s b).grant = s.grant := rfl
@[simp] theorem setClock_pinsOk (s : State) (b : Bool) : (setClock s b).pinsOk = s.pinsOk := rfl
@[simp] theorem setClock_copyOk (s : State) (b : Bool) : (setClock s b).copyOk = s.copyOk := rfl
@[simp] theorem setClock_answers (s : State) (b : Bool) : (setClock s b).answers = s.answers := rfl
@[simp] theorem setClock_draws (s : State) (b : Bool) : (setClock s b).draws = s.draws := rfl

/-! ### setData -/

@[simp] theorem setData_ena (s : State) (b : Bool) : (setData s b).ena = s.ena := rfl
@[simp] theorem setData_nled (s : State) (b : Bool) : (setData s b).nled = s.nled := rfl
@[simp] theorem setData_lock (s : State) (b : Bool) : (setData s b).lock = s.lock := rfl
@[simp] theorem setData_owner (s : State) (b : Bool) : (setData s b).owner = s.owner := rfl
@[simp] theorem setData_pend (s : State) (b : Bool) : (setData s b).pend = s.pend := rfl
@[simp] theorem setData_fb (s : State) (b : Bool) : (setData s b).fb = s.fb := rfl
@[simp] theorem setData_clk (s : State) (b : Bool) : (setData s b).clk = s.clk := rfl
@[simp] theorem setData_dat (s : State) (b : Bool) : (setData s b).dat = b := rfl
@[simp] theorem setData_oe (s : State) (b : Bool) : (setData s b).oe = s.oe := rfl
@[simp] theorem setData_ph (s : State) (b : Bool) : (setData s b).ph = s.ph := rfl
@[simp] theorem setData_byp (s : State) (b : Bool) : (setData s b).byp = s.byp := rfl
@[simp] theorem setData_bitc (s : State) (b : Bool) : (setData s b).bitc = s.bitc := rfl
@[simp] theorem setData_txlen (s : State) (b : Bool) : (setData s b).txlen = s.txlen := rfl
@[simp] theorem setData_dly (s : State) (b : Bool) : (setData s b).dly = s.dly := rfl
@[simp] theorem setData_oplog (s : State) (b : Bool) : (setData s b).oplog = s.oplog ++ [if b then .d1 else .d0] := rfl
@[simp] theorem setData_t (s : State) (b : Bool) : (setData s b).t = s.t := rfl
@[simp] theorem setData_cfg (s : State) (b : Bool) : (setData s b).cfg = s.cfg := rfl
@[simp] theorem setData_strobe (s : State) (b : Bool) : (setData s b).strobe = s.strobe := rfl
@[simp] theorem setData_moves (s : State) (b : Bool) : (setData s b).moves = s.moves := rfl
@[simp] theorem setData_grant (s : State) (b : Bool) : (setData s b).grant = s.grant := rfl
@[simp] theorem setData_pinsOk (s : State) (b : Bool) : (setData s b).pinsOk = s.pinsOk := rfl
@[simp] theorem setData_copyOk (s : State) (b : Bool) : (setData s b).copyOk = s.copyOk := rfl
@[simp] theorem setData_answers (s : State) (b : Bool) : (setData s b).answers = s.answers := rfl
@[simp] theorem setData_draws (s : State) (b : Bool) : (setData s b).draws = s.draws := rfl

/-! ### countTick -/

@[simp] theorem countTick_ena (s : State) : (countTick s).ena = s.ena := rfl
@[simp] theorem countTick_nled (s : State) : (countTick s).nled = s.nled := rfl
@[simp] theorem countTick_lock (s : State) : (countTick s).lock = s.lock := rfl
@[simp] theorem countTick_owner (s : State) : (countTick s).owner = s.owner := rfl
@[simp] theorem countTick_pend (s : State) : (countTick s).pend = s.pend := rfl
@[simp] theorem countTick_fb (s : State) : (countTick s).fb = s.fb := rfl
@[simp] theorem countTick_clk (s : State) : (countTick s).clk = s.clk := rfl
@[simp] theorem countTick_dat (s : State) : (countTick s).dat = s.dat := rfl
@[simp] theorem countTick_oe (s : State) : (countTick s).oe = s.oe := rfl
@[simp] theorem countTick_ph (s : State) : (countTick s).ph = s.ph := rfl
@[simp] theorem countTick_byp (s : State) : (countTick s).byp = s.byp := rfl
@[simp] theorem countTick_bitc (s : State) : (countTick s).bitc = s.bitc := rfl
@[simp] theorem countTick_txlen (s : State) : (countTick s).txlen = s.txlen := rfl
@[simp] theorem countTick_dly (s : State) : (countTick s).dly = s.dly := rfl
@[simp] theorem countTick_oplog (s : State) : (countTick s).oplog = s.oplog := rfl
@[simp] theorem countTick_t (s : State) : (countTick s).t = s.t + 1 := rfl
@[simp] theorem countTick_cfg (s : State) : (countTick s).cfg = s.cfg := rfl
@[simp] theorem countTick_strobe (s : State) : (countTick s).strobe = s.strobe := rfl
@[simp] theorem countTick_moves (s : State) : (countTick s).moves = s.moves := rfl
@[simp] theorem countTick_grant (s : State) : (countTick s).grant = s.grant := rfl
@[simp] theorem countTick_pinsOk (s : State) : (countTick s).pinsOk = s.pinsOk := rfl
@[simp] theorem countTick_copyOk (s : State) : (countTick s).copyOk = s.copyOk := rfl
@[simp] theorem countTick_answers (s : State) : (countTick s).answers = s.answers := rfl
@[simp] theorem countTick_draws (s : State) : (countTick s).draws = s.draws := rfl

/-! ### startTransmit -/

@[simp] theorem startTransmit_ena (s : State) (n : Word) : (startTransmit s n).ena = s.ena := rfl
@[simp] theorem startTransmit_nled (s : State) (n : Word) : (startTransmit s n).nled = s.nled := rfl
@[simp] theorem startTransmit_lock (s : State) (n : Word) : (startTransmit s n).lock = s.lock := rfl
@[simp] theorem startTransmit_owner (s : State) (n : Word) : (startTransmit s n).owner = s.owner := rfl
@[simp] theorem startTransmit_pend (s : State) (n : Word) : (startTransmit s n).pend = s.pend := rfl
@[simp] theorem startTransmit_fb (s : State) (n : Word) : (startTransmit s n).fb = s.fb := rfl
@[simp] theorem startTransmit_clk (s : State) (n : Word) : (startTransmit s n).clk = s.clk := rfl
@[simp] theorem startTransmit_dat (s : State) (n : Word) : (startTransmit s n).dat = s.dat := rfl
@[simp] theorem startTransmit_oe (s : State) (n : Word) : (startTransmit s n).oe = s.oe := rfl
@[simp] theorem startTransmit_ph (s : State) (n : Word) : (startTransmit s n).ph = if n = 0 then phLatch else phClklo := rfl
@[simp] theorem startTransmit_byp (s : State) (n : Word) : (startTransmit s n).byp = 0 := rfl
@[simp] theorem startTransmit_bitc (s : State) (n : Word) : (startTransmit s n).bitc = 7 := rfl
@[simp] theorem startTransmit_txlen (s : State) (n : Word) : (startTransmit s n).txlen = n := rfl
@[simp] theorem startTransmit_dly (s : State) (n : Word) : (startTransmit s n).dly = 0 := rfl
@[simp] theorem startTransmit_oplog (s : State) (n : Word) : (startTransmit s n).oplog = s.oplog := rfl
@[simp] theorem startTransmit_t (s : State) (n : Word) : (startTransmit s n).t = s.t := rfl
@[simp] theorem startTransmit_cfg (s : State) (n : Word) : (startTransmit s n).cfg = s.cfg := rfl
@[simp] theorem startTransmit_strobe (s : State) (n : Word) : (startTransmit s n).strobe = s.strobe := rfl
@[simp] theorem startTransmit_moves (s : State) (n : Word) : (startTransmit s n).moves = s.moves := rfl
@[simp] theorem startTransmit_grant (s : State) (n : Word) : (startTransmit s n).grant = s.grant := rfl
@[simp] theorem startTransmit_pinsOk (s : State) (n : Word) : (startTransmit s n).pinsOk = s.pinsOk := rfl
@[simp] theorem startTransmit_copyOk (s : State) (n : Word) : (startTransmit s n).copyOk = s.copyOk := rfl
@[simp] theorem startTransmit_answers (s : State) (n : Word) : (startTransmit s n).answers = s.answers := rfl
@[simp] theorem startTransmit_draws (s : State) (n : Word) : (startTransmit s n).draws = s.draws := rfl

/-! ### countDelay -/

@[simp] theorem countDelay_ena (s : State) : (countDelay s).ena = s.ena := rfl
@[simp] theorem countDelay_nled (s : State) : (countDelay s).nled = s.nled := rfl
@[simp] theorem countDelay_lock (s : State) : (countDelay s).lock = s.lock := rfl
@[simp] theorem countDelay_owner (s : State) : (countDelay s).owner = s.owner := rfl
@[simp] theorem countDelay_pend (s : State) : (countDelay s).pend = s.pend := rfl
@[simp] theorem countDelay_fb (s : State) : (countDelay s).fb = s.fb := rfl
@[simp] theorem countDelay_clk (s : State) : (countDelay s).clk = s.clk := rfl
@[simp] theorem countDelay_dat (s : State) : (countDelay s).dat = s.dat := rfl
@[simp] theorem countDelay_oe (s : State) : (countDelay s).oe = s.oe := rfl
@[simp] theorem countDelay_ph (s : State) : (countDelay s).ph = s.ph := rfl
@[simp] theorem countDelay_byp (s : State) : (countDelay s).byp = s.byp := rfl
@[simp] theorem countDelay_bitc (s : State) : (countDelay s).bitc = s.bitc := rfl
@[simp] theorem countDelay_txlen (s : State) : (countDelay s).txlen = s.txlen := rfl
@[simp] theorem countDelay_dly (s : State) : (countDelay s).dly = delayMinusOne s := rfl
@[simp] theorem countDelay_oplog (s : State) : (countDelay s).oplog = s.oplog := rfl
@[simp] theorem countDelay_t (s : State) : (countDelay s).t = s.t := rfl
@[simp] theorem countDelay_cfg (s : State) : (countDelay s).cfg = s.cfg := rfl
@[simp] theorem countDelay_strobe (s : State) : (countDelay s).strobe = s.strobe := rfl
@[simp] theorem countDelay_moves (s : State) : (countDelay s).moves = s.moves := rfl
@[simp] theorem countDelay_grant (s : State) : (countDelay s).grant = s.grant := rfl
@[simp] theorem countDelay_pinsOk (s : State) : (countDelay s).pinsOk = s.pinsOk := rfl
@[simp] theorem countDelay_copyOk (s : State) : (countDelay s).copyOk = s.copyOk := rfl
@[simp] theorem countDelay_answers (s : State) : (countDelay s).answers = s.answers := rfl
@[simp] theorem countDelay_draws (s : State) : (countDelay s).draws = if s.dly = 0 then s.draws + 1 else s.draws := rfl

/-! ### openRegisters -/

@[simp] theorem openRegisters_ena (n : Word) (s : State) : (openRegisters n s).ena = true := rfl
@[simp] theorem openRegisters_nled (n : Word) (s : State) : (openRegisters n s).nled = n := rfl
@[simp] theorem openRegisters_lock (n : Word) (s : State) : (openRegisters n s).lock = false := rfl
@[simp] theorem openRegisters_owner (n : Word) (s : State) : (openRegisters n s).owner = s.owner := rfl
@[simp] theorem openRegisters_pend (n : Word) (s : State) : (openRegisters n s).pend = s.pend := rfl
@[simp] theorem openRegisters_fb (n : Word) (s : State) : (openRegisters n s).fb = [] := rfl
@[simp] theorem openRegisters_clk (n : Word) (s : State) : (openRegisters n s).clk = false := rfl
@[simp] theorem openRegisters_dat (n : Word) (s : State) : (openRegisters n s).dat = false := rfl
@[simp] theorem openRegisters_oe (n : Word) (s : State) : (openRegisters n s).oe = true := rfl
@[simp] theorem openRegisters_ph (n : Word) (s : State) : (openRegisters n s).ph = phIdle := rfl
@[simp] theorem openRegisters_byp (n : Word) (s : State) : (openRegisters n s).byp = 0 := rfl
@[simp] theorem openRegisters_bitc (n : Word) (s : State) : (openRegisters n s).bitc = 7 := rfl
@[simp] theorem openRegisters_txlen (n : Word) (s : State) : (openRegisters n s).txlen = 0 := rfl
@[simp] theorem openRegisters_dly (n : Word) (s : State) : (openRegisters n s).dly = 0 := rfl
@[simp] theorem openRegisters_oplog (n : Word) (s : State) : (openRegisters n s).oplog = s.oplog := rfl
@[simp] theorem openRegisters_t (n : Word) (s : State) : (openRegisters n s).t = s.t := rfl
@[simp] theorem openRegisters_cfg (n : Word) (s : State) : (openRegisters n s).cfg = s.cfg := rfl
@[simp] theorem openRegisters_strobe (n : Word) (s : State) : (openRegisters n s).strobe = s.strobe := rfl
@[simp] theorem openRegisters_moves (n : Word) (s : State) : (openRegisters n s).moves = s.moves := rfl
@[simp] theorem openRegisters_grant (n : Word) (s : State) : (openRegisters n s).grant = s.grant := rfl
@[simp] theorem openRegisters_pinsOk (n : Word) (s : State) : (openRegisters n s).pinsOk = s.pinsOk := rfl
@[simp] theorem openRegisters_copyOk (n : Word) (s : State) : (openRegisters n s).copyOk = s.copyOk := rfl
@[simp] theorem openRegisters_answers (n : Word) (s : State) : (openRegisters n s).answers = s.answers := rfl
@[simp] theorem openRegisters_draws (n : Word) (s : State) : (openRegisters n s).draws = s.draws := rfl

/-! ### closeRegisters -/

@[simp] theorem closeRegisters_ena (s : State) : (closeRegisters s).ena = false := rfl
@[simp] theorem closeRegisters_nled (s : State) : (closeRegisters s).nled = Config.freeNled s.draws := rfl
@[simp] theorem closeRegisters_lock (s : State) : (closeRegisters s).lock = s.lock := rfl
@[simp] theorem closeRegisters_owner (s : State) : (closeRegisters s).owner = s.owner := rfl
@[simp] theorem closeRegisters_pend (s : State) : (closeRegisters s).pend = s.pend := rfl
@[simp] theorem closeRegisters_fb (s : State) : (closeRegisters s).fb = freedFrame s := rfl
@[simp] theorem closeRegisters_clk (s : State) : (closeRegisters s).clk = s.clk := rfl
@[simp] theorem closeRegisters_dat (s : State) : (closeRegisters s).dat = s.dat := rfl
@[simp] theorem closeRegisters_oe (s : State) : (closeRegisters s).oe = false := rfl
@[simp] theorem closeRegisters_ph (s : State) : (closeRegisters s).ph = s.ph := rfl
@[simp] theorem closeRegisters_byp (s : State) : (closeRegisters s).byp = s.byp := rfl
@[simp] theorem closeRegisters_bitc (s : State) : (closeRegisters s).bitc = s.bitc := rfl
@[simp] theorem closeRegisters_txlen (s : State) : (closeRegisters s).txlen = s.txlen := rfl
@[simp] theorem closeRegisters_dly (s : State) : (closeRegisters s).dly = s.dly := rfl
@[simp] theorem closeRegisters_oplog (s : State) : (closeRegisters s).oplog = s.oplog := rfl
@[simp] theorem closeRegisters_t (s : State) : (closeRegisters s).t = s.t := rfl
@[simp] theorem closeRegisters_cfg (s : State) : (closeRegisters s).cfg = s.cfg := rfl
@[simp] theorem closeRegisters_strobe (s : State) : (closeRegisters s).strobe = s.strobe := rfl
@[simp] theorem closeRegisters_moves (s : State) : (closeRegisters s).moves = s.moves := rfl
@[simp] theorem closeRegisters_grant (s : State) : (closeRegisters s).grant = s.grant := rfl
@[simp] theorem closeRegisters_pinsOk (s : State) : (closeRegisters s).pinsOk = s.pinsOk := rfl
@[simp] theorem closeRegisters_copyOk (s : State) : (closeRegisters s).copyOk = s.copyOk := rfl
@[simp] theorem closeRegisters_answers (s : State) : (closeRegisters s).answers = s.answers := rfl
@[simp] theorem closeRegisters_draws (s : State) : (closeRegisters s).draws = s.draws + 1 := rfl

/-! ### selectPort -/

@[simp] theorem selectPort_ena (s : State) (p : Port) (a b : Bool) : (selectPort s p a b).ena = s.ena := rfl
@[simp] theorem selectPort_nled (s : State) (p : Port) (a b : Bool) : (selectPort s p a b).nled = s.nled := rfl
@[simp] theorem selectPort_lock (s : State) (p : Port) (a b : Bool) : (selectPort s p a b).lock = s.lock := rfl
@[simp] theorem selectPort_owner (s : State) (p : Port) (a b : Bool) : (selectPort s p a b).owner = s.owner := rfl
@[simp] theorem selectPort_pend (s : State) (p : Port) (a b : Bool) : (selectPort s p a b).pend = s.pend := rfl
@[simp] theorem selectPort_fb (s : State) (p : Port) (a b : Bool) : (selectPort s p a b).fb = s.fb := rfl
@[simp] theorem selectPort_clk (s : State) (p : Port) (a b : Bool) : (selectPort s p a b).clk = s.clk := rfl
@[simp] theorem selectPort_dat (s : State) (p : Port) (a b : Bool) : (selectPort s p a b).dat = s.dat := rfl
@[simp] theorem selectPort_oe (s : State) (p : Port) (a b : Bool) : (selectPort s p a b).oe = s.oe := rfl
@[simp] theorem selectPort_ph (s : State) (p : Port) (a b : Bool) : (selectPort s p a b).ph = s.ph := rfl
@[simp] theorem selectPort_byp (s : State) (p : Port) (a b : Bool) : (selectPort s p a b).byp = s.byp := rfl
@[simp] theorem selectPort_bitc (s : State) (p : Port) (a b : Bool) : (selectPort s p a b).bitc = s.bitc := rfl
@[simp] theorem selectPort_txlen (s : State) (p : Port) (a b : Bool) : (selectPort s p a b).txlen = s.txlen := rfl
@[simp] theorem selectPort_dly (s : State) (p : Port) (a b : Bool) : (selectPort s p a b).dly = s.dly := rfl
@[simp] theorem selectPort_oplog (s : State) (p : Port) (a b : Bool) : (selectPort s p a b).oplog = s.oplog := rfl
@[simp] theorem selectPort_t (s : State) (p : Port) (a b : Bool) : (selectPort s p a b).t = s.t := rfl
@[simp] theorem selectPort_cfg (s : State) (p : Port) (a b : Bool) : (selectPort s p a b).cfg = s.cfg := rfl
@[simp] theorem selectPort_strobe (s : State) (p : Port) (a b : Bool) : (selectPort s p a b).strobe = s.strobe := rfl
@[simp] theorem selectPort_moves (s : State) (p : Port) (a b : Bool) : (selectPort s p a b).moves = s.moves := rfl
@[simp] theorem selectPort_grant (s : State) (p : Port) (a b : Bool) : (selectPort s p a b).grant = p := rfl
@[simp] theorem selectPort_pinsOk (s : State) (p : Port) (a b : Bool) : (selectPort s p a b).pinsOk = a := rfl
@[simp] theorem selectPort_copyOk (s : State) (p : Port) (a b : Bool) : (selectPort s p a b).copyOk = b := rfl
@[simp] theorem selectPort_answers (s : State) (p : Port) (a b : Bool) : (selectPort s p a b).answers = s.answers := rfl
@[simp] theorem selectPort_draws (s : State) (p : Port) (a b : Bool) : (selectPort s p a b).draws = s.draws := rfl

end Sys2Proof.Machine
end

