-- ==== Sys2Proof/Laws/Commands.lean ====
section
/-! SUPPORT. One lemma for each shared operation and each command: everything it can do. -/

namespace Sys2Proof.Machine

theorem narrowWord_of_lt {s : State} {n : Nat} (h : n < 2 ^ 32) : narrowWord s n = BitVec.ofNat 32 n := if_pos h

theorem narrowDraws_of_lt {s : State} {n : Nat} (h : n < 2 ^ 32) : narrowDraws s n = s.draws := if_pos h

/-- R134 with R82, R101: the strobe the gate issues is taken in the same step and stands no longer. -/
theorem takeStrobe_issueStrobe (s : State) (n : Word) :
    takeStrobe (issueStrobe s n) = startTransmit { s with strobe := noStrobe } n := by
  simp [takeStrobe, issueStrobe]

theorem takeStrobe_of_none {s : State} (h : strobeStart s.strobe = false) : takeStrobe s = s := by
  simp [takeStrobe, h]

/-- All that write-begin writes (R134), `3 * NLED` fitting 32 bits. -/
theorem writeBegin_eq (len : Word) (data : List Byte) (s : State) (h : frameLen s < 2 ^ 32) :
    writeBegin len data s =
      { s with
        lock := true
        owner := s.grant
        fb := storeCandidate s len data
        strobe := noStrobe
        txlen := BitVec.ofNat 32 (frameLen s)
        byp := 0
        bitc := 7
        dly := 0
        ph := if BitVec.ofNat 32 (frameLen s) = 0 then phLatch else phClklo } := by
  rw [writeBegin, takeStrobe_issueStrobe, frameCount, narrowWord_of_lt h, narrowDraws_of_lt h]
  rfl

@[simp] theorem pending_respond (s : State) (st : Status) (v : Word) (d : List Byte) (q : Port) :
    pending (respond s st v d) q = if q = s.grant then none else pending s q := by
  simp [pending, kvGet_drop]

/-- A free port takes the request and nothing else changes (R63). -/
theorem submit_of_free {p : Port} {r : Request} {s : State} (h : pending s p = none) :
    submit p r s = { s with pend := kvPut p r s.pend } := by
  simp [submit, h]

theorem pending_submit (p q : Port) (r : Request) (s : State) (h : pending s p = none) :
    pending (submit p r s) q = if q = p then some r else pending s q := by
  rw [submit_of_free h]
  exact kvGet_put q p r s.pend

/-- A busy port takes no second request (R31). -/
theorem submit_of_busy {p : Port} {r r' : Request} {s : State} (h : pending s p = some r') : submit p r s = s := by
  simp [submit, h]

/-- FB after write-begin, byte by byte (R134). -/
theorem read_storeCandidate (s : State) (len : Word) (data : List Byte) (hl : data.length = len.toNat) (i : Nat) :
    Memory.read (storeCandidate s len data) i =
      if i < len.toNat then data.getD i 0 else if i < frameLen s then 0 else Memory.read s.fb i := by
  rw [storeCandidate, Memory.read_zeroFill, Memory.read_writeBytes, hl]
  split_ifs <;> first | rfl | omega

/-! ### The tests of Flags.lean as arithmetic -/

theorem misaligned_eq_true {len : Word} : misaligned len = true ↔ len.toNat % 3 ≠ 0 := by
  simp [misaligned, colorBytes]

theorem misaligned_eq_false {len : Word} : misaligned len = false ↔ len.toNat % 3 = 0 := by
  simp [misaligned, colorBytes]

theorem tooLong_eq_true {s : State} {len : Word} : tooLong s len = true ↔ s.nled.toNat < len.toNat / 3 := by
  simp only [tooLong, colorBytes, decide_eq_true_eq]

theorem tooLong_eq_false {s : State} {len : Word} : tooLong s len = false ↔ len.toNat / 3 ≤ s.nled.toNat := by
  simp only [tooLong, colorBytes, decide_eq_false_iff_not, Nat.not_lt]

theorem validLength_eq_true {s : State} {len : Word} :
    validLength s len = true ↔ len.toNat % 3 = 0 ∧ len.toNat / 3 ≤ s.nled.toNat := by
  rw [validLength, Bool.and_eq_true, Bool.not_eq_true', Bool.not_eq_true', misaligned_eq_false, tooLong_eq_false]

theorem transmitReturned_eq_true {s : State} :
    transmitReturned s = true ↔ s.lock = true ∧ s.ph = phIdle ∧ s.owner = s.grant := by
  simp [transmitReturned, transmitting, and_assoc]

/-! ### The fields after write-begin -/

@[simp] theorem writeBegin_ena (len : Word) (data : List Byte) (s : State) :
    (writeBegin len data s).ena = s.ena := by
  simp [writeBegin, takeStrobe_issueStrobe]

@[simp] theorem writeBegin_nled (len : Word) (data : List Byte) (s : State) :
    (writeBegin len data s).nled = s.nled := by
  simp [writeBegin, takeStrobe_issueStrobe]

@[simp] theorem writeBegin_lock (len : Word) (data : List Byte) (s : State) :
    (writeBegin len data s).lock = true := by
  simp [writeBegin, takeStrobe_issueStrobe]

@[simp] theorem writeBegin_owner (len : Word) (data : List Byte) (s : State) :
    (writeBegin len data s).owner = s.grant := by
  simp [writeBegin, takeStrobe_issueStrobe]

@[simp] theorem writeBegin_pend (len : Word) (data : List Byte) (s : State) :
    (writeBegin len data s).pend = s.pend := by
  simp [writeBegin, takeStrobe_issueStrobe]

@[simp] theorem writeBegin_fb (len : Word) (data : List Byte) (s : State) :
    (writeBegin len data s).fb = storeCandidate s len data := by
  simp [writeBegin, takeStrobe_issueStrobe]

@[simp] theorem writeBegin_clk (len : Word) (data : List Byte) (s : State) :
    (writeBegin len data s).clk = s.clk := by
  simp [writeBegin, takeStrobe_issueStrobe]

@[simp] theorem writeBegin_dat (len : Word) (data : List Byte) (s : State) :
    (writeBegin len data s).dat = s.dat := by
  simp [writeBegin, takeStrobe_issueStrobe]

@[simp] theorem writeBegin_oe (len : Word) (data : List Byte) (s : State) :
    (writeBegin len data s).oe = s.oe := by
  simp [writeBegin, takeStrobe_issueStrobe]

@[simp] theorem writeBegin_ph (len : Word) (data : List Byte) (s : State) :
    (writeBegin len data s).ph = if frameCount s = 0 then phLatch else phClklo := by
  simp [writeBegin, takeStrobe_issueStrobe]

@[simp] theorem writeBegin_byp (len : Word) (data : List Byte) (s : State) :
    (writeBegin len data s).byp = 0 := by
  simp [writeBegin, takeStrobe_issueStrobe]

@[simp] theorem writeBegin_bitc (len : Word) (data : List Byte) (s : State) :
    (writeBegin len data s).bitc = 7 := by
  simp [writeBegin, takeStrobe_issueStrobe]

@[simp] theorem writeBegin_txlen (len : Word) (data : List Byte) (s : State) :
    (writeBegin len data s).txlen = frameCount s := by
  simp [writeBegin, takeStrobe_issueStrobe]

@[simp] theorem writeBegin_dly (len : Word) (data : List Byte) (s : State) :
    (writeBegin len data s).dly = 0 := by
  simp [writeBegin, takeStrobe_issueStrobe]

@[simp] theorem writeBegin_oplog (len : Word) (data : List Byte) (s : State) :
    (writeBegin len data s).oplog = s.oplog := by
  simp [writeBegin, takeStrobe_issueStrobe]

@[simp] theorem writeBegin_t (len : Word) (data : List Byte) (s : State) :
    (writeBegin len data s).t = s.t := by
  simp [writeBegin, takeStrobe_issueStrobe]

@[simp] theorem writeBegin_cfg (len : Word) (data : List Byte) (s : State) :
    (writeBegin len data s).cfg = s.cfg := by
  simp [writeBegin, takeStrobe_issueStrobe]

@[simp] theorem writeBegin_strobe (len : Word) (data : List Byte) (s : State) :
    (writeBegin len data s).strobe = noStrobe := by
  simp [writeBegin, takeStrobe_issueStrobe]

@[simp] theorem writeBegin_moves (len : Word) (data : List Byte) (s : State) :
    (writeBegin len data s).moves = s.moves := by
  simp [writeBegin, takeStrobe_issueStrobe]

@[simp] theorem writeBegin_grant (len : Word) (data : List Byte) (s : State) :
    (writeBegin len data s).grant = s.grant := by
  simp [writeBegin, takeStrobe_issueStrobe]

@[simp] theorem writeBegin_answers (len : Word) (data : List Byte) (s : State) :
    (writeBegin len data s).answers = s.answers := by
  simp [writeBegin, takeStrobe_issueStrobe]

/-! ### What each command can do -/

/-- What OPEN answers next with (R166, R167). -/
theorem execOpen_next {n : Option Word} {s t : State} (h : execOpen n s = .next t) :
    s.ena = false ∧
      ((acquired s (openCount n) = true ∧ t = respond (openRegisters (openCount n) s) .ok 0 []) ∨
       (acquired s (openCount n) = false ∧ t = raiseError s .initError)) := by
  unfold execOpen at h
  split_ifs at h with h1 h2 <;> simp_all

/-- What WRITE answers next with (R130). -/
theorem execWrite_next {len : Word} {data : List Byte} {s t : State} (h : execWrite len data s = .next t) :
    s.ena = true ∧
      ((misaligned len = true ∧ t = raiseError s .rangeError) ∨
       (misaligned len = false ∧ tooLong s len = true ∧ t = raiseError s .sizeError) ∨
       (validLength s len = true ∧ s.lock = true ∧ transmitReturned s = true ∧ t = writeEnd len s) ∨
       (validLength s len = true ∧ s.lock = true ∧ transmitReturned s = false ∧ t = s) ∨
       (validLength s len = true ∧ s.lock = false ∧ s.copyOk = true ∧ t = writeBegin len data s) ∨
       (validLength s len = true ∧ s.lock = false ∧ s.copyOk = false ∧ t = raiseError s .copyError)) := by
  unfold execWrite at h
  split_ifs at h <;> simp_all [validLength, stayBlocked, writeCopyFail]

/-- What READ answers next with (R150, R151). -/
theorem execRead_next {s t : State} (h : execRead s = .next t) :
    s.ena = true ∧ ((s.lock = true ∧ t = s) ∨ (s.lock = false ∧ t = readSnapshot s)) := by
  unfold execRead at h
  split_ifs at h <;> simp_all [stayBlocked]

/-- What QUERY answers next with (R155). -/
theorem execQuery_next {s t : State} (h : execQuery s = .next t) : s.ena = true ∧ t = respond s .ok s.nled [] := by
  unfold execQuery at h
  split_ifs at h
  simp_all

/-- What CLOSE answers next with (R170, R171). -/
theorem execClose_next {s t : State} (h : execClose s = .next t) :
    (s.ena = false ∧ t = respond s .ok 0 []) ∨ (s.ena = true ∧ s.lock = true ∧ t = s) ∨
      (s.ena = true ∧ s.lock = false ∧ t = respond (closeRegisters s) .ok 0 []) := by
  unfold execClose at h
  split_ifs at h <;> simp_all [stayBlocked]

/-- What DSET answers next with (R104). -/
theorem execDset_next {s t : State} (h : execDset s = .next t) :
    ∃ b, currentBit s = some b ∧ t = { setData s b with ph := phClkhi } := by
  unfold execDset at h
  split at h
  · exact ⟨_, ‹_›, by simpa using h.symm⟩
  · simp at h

end Sys2Proof.Machine
end

