-- ==== Sys2Proof/Laws/PerInstr.lean ====
section
/-! SUPPORT. Statements about every instruction as it is written, one lemma a constructor. -/

namespace Sys2Proof.Laws.TableRow

/-- The encoded instruction carries the fixed bits of its row of spec/opcode_table.json. -/
def Statement (i : Instr) : Prop := (encode i).number % (tableMask i + 1) = tableMatch i

theorem header_row (arg : Word) (c : Bool) (op : BitVec 3) : (mkHeader arg c op).toNat % 8 = op.toNat := by
  rw [← headerOp_toNat, headerOp_mkHeader]

theorem openDev (n : Option Word) : Statement (.openDev n) := by
  cases n <;> exact header_row _ _ _

theorem write (len : Word) (data : List Byte) : Statement (.write len data) := header_row _ _ _

theorem read : Statement .read := header_row _ _ _

theorem query : Statement .query := header_row _ _ _

theorem close : Statement .close := header_row _ _ _

theorem transmit (n : Word) : Statement (.transmit n) := by
  show (mkStrobe n).toNat % 2 = 1
  rw [mkStrobe_toNat]
  omega

theorem idle : Statement .idle := rfl

theorem clklo : Statement .clklo := rfl

theorem dset : Statement .dset := rfl

theorem clkhi : Statement .clkhi := rfl

theorem hold : Statement .hold := rfl

theorem latch : Statement .latch := rfl

theorem lwait : Statement .lwait := rfl

end Sys2Proof.Laws.TableRow
end

