-- ==== Sys2Proof/Laws/Step.lean ====
section
/-! SUPPORT. Everything one step can do: the inversion lemmas that invariants and frames over `step` cite. -/

namespace Sys2Proof.Machine

/-- A step that answers next: a strobe was taken, or a tick, or a move (R58, R100). -/
theorem step_next {s t : State} (h : step s = .next t) :
    standingRefusal s = none ∧
      ((strobeStart s.strobe = true ∧ t = startTransmit { s with strobe := noStrobe } (strobeLen s.strobe)) ∨
       (strobeStart s.strobe = false ∧ s.moves = [] ∧ tickStep s = .next t) ∨
       (strobeStart s.strobe = false ∧ ∃ m ms, s.moves = m :: ms ∧ moveStep m { s with moves := ms } = .next t)) := by
  unfold step at h
  split at h
  · simp at h
  · refine ⟨‹_›, ?_⟩
    split at h
    · obtain ⟨h1, rfl⟩ := decodeStrobe_eq_ok ‹_›
      refine .inl ⟨h1, ?_⟩
      simpa [exec, execTransmit] using h.symm
    · have hs : strobeStart s.strobe = false := by
        by_contra hne
        simp_all [decodeStrobe]
      split at h
      · exact .inr (.inl ⟨hs, ‹_›, h⟩)
      · exact .inr (.inr ⟨hs, _, _, ‹_›, h⟩)

/-- A gate step that answers next: nothing was pending, or the pending command ran (R58). -/
theorem gateStep_next {p : Port} {a b : Bool} {s t : State} (h : gateStep p a b s = .next t) :
    (pending s p = none ∧ t = s) ∨
      ∃ r i, pending s p = some r ∧ decodeRequest r = .ok i ∧ exec i (selectPort s p a b) = .next t := by
  unfold gateStep fetchCommand at h
  cases hp : pending s p with
  | none =>
    simp only [hp, Option.map_none] at h
    exact .inl ⟨rfl, by simpa using h.symm⟩
  | some r =>
    simp only [hp, Option.map_some] at h
    cases hd : decodeRequest r with
    | error e => simp [hd] at h
    | ok i =>
      simp only [hd] at h
      exact .inr ⟨r, i, rfl, hd, h⟩

/-- A command that ran: which, and what it did. -/
theorem exec_command_next {i : Instr} {s t : State} (hi : i.isCommand = true) (h : exec i s = .next t) :
    (∃ n, i = .openDev n ∧ execOpen n s = .next t) ∨ (∃ l d, i = .write l d ∧ execWrite l d s = .next t) ∨
      (i = .read ∧ execRead s = .next t) ∨ (i = .query ∧ execQuery s = .next t) ∨
      (i = .close ∧ execClose s = .next t) := by
  cases i with
  | openDev n => exact .inl ⟨n, rfl, h⟩
  | write l d => exact .inr (.inl ⟨l, d, rfl, h⟩)
  | read => exact .inr (.inr (.inl ⟨rfl, h⟩))
  | query => exact .inr (.inr (.inr (.inl ⟨rfl, h⟩)))
  | close => exact .inr (.inr (.inr (.inr ⟨rfl, h⟩)))
  | transmit _ => simp [Instr.isCommand] at hi
  | idle => simp [Instr.isCommand] at hi
  | clklo => simp [Instr.isCommand] at hi
  | dset => simp [Instr.isCommand] at hi
  | clkhi => simp [Instr.isCommand] at hi
  | hold => simp [Instr.isCommand] at hi
  | latch => simp [Instr.isCommand] at hi
  | lwait => simp [Instr.isCommand] at hi

/-- A tick that answers next, phase by phase (R100, R102 to R108). -/
theorem tickStep_next {s t : State} (h : tickStep s = .next t) :
    (s.ph = phIdle ∧ t = countTick s) ∨ (s.ph = phClklo ∧ execClklo (countTick s) = .next t) ∨
      (s.ph = phDset ∧ execDset (countTick s) = .next t) ∨ (s.ph = phClkhi ∧ execClkhi (countTick s) = .next t) ∨
      (s.ph = phHold ∧ execHold (countTick s) = .next t) ∨ (s.ph = phLatch ∧ execLatch (countTick s) = .next t) ∨
      (s.ph = phLwait ∧ execLwait (countTick s) = .next t) := by
  rcases phase_cases s.ph with hp | hp | hp | hp | hp | hp | hp | hp <;>
    simp only [tickStep, hp, decodePhase] at h <;>
    first
    | exact .inl ⟨hp, by simpa [exec, execIdle] using h.symm⟩
    | exact .inr (.inl ⟨hp, h⟩)
    | exact .inr (.inr (.inl ⟨hp, h⟩))
    | exact .inr (.inr (.inr (.inl ⟨hp, h⟩)))
    | exact .inr (.inr (.inr (.inr (.inl ⟨hp, h⟩))))
    | exact .inr (.inr (.inr (.inr (.inr (.inl ⟨hp, h⟩)))))
    | exact .inr (.inr (.inr (.inr (.inr (.inr ⟨hp, h⟩)))))
    | simp at h

/-- The frame of a tick: what the phases never write, and that OPLOG only grows (R100, R111). -/
theorem tickStep_frame {s t : State} (h : tickStep s = .next t) :
    t = { s with
        clk := t.clk
        dat := t.dat
        ph := t.ph
        byp := t.byp
        bitc := t.bitc
        dly := t.dly
        oplog := t.oplog
        draws := t.draws
        t := s.t + 1 }
      ∧ ∃ es, t.oplog = s.oplog ++ es := by
  rcases tickStep_next h with ⟨_, rfl⟩ | ⟨_, h⟩ | ⟨_, h⟩ | ⟨_, h⟩ | ⟨_, h⟩ | ⟨_, h⟩ | ⟨_, h⟩
  · exact ⟨rfl, [], by simp⟩
  · injection h with h
    subst h
    exact ⟨rfl, _, rfl⟩
  · obtain ⟨b, _, rfl⟩ := execDset_next h
    exact ⟨rfl, _, rfl⟩
  · injection h with h
    subst h
    exact ⟨rfl, _, rfl⟩
  · injection h with h
    subst h
    by_cases h1 : delayMinusOne (countTick s) = 0
    · rw [if_pos h1]
      unfold holdDone
      by_cases h2 : (countTick s).bitc ≠ 0
      · rw [if_pos h2]
        exact ⟨rfl, _, rfl⟩
      · rw [if_neg h2]
        exact ⟨rfl, _, rfl⟩
    · rw [if_neg h1]
      exact ⟨rfl, [], by simp [countDelay]⟩
  · injection h with h
    subst h
    exact ⟨rfl, _, rfl⟩
  · injection h with h
    subst h
    by_cases h1 : delayMinusOne (countTick s) = 0
    · rw [if_pos h1]
      exact ⟨rfl, _, rfl⟩
    · rw [if_neg h1]
      exact ⟨rfl, [], by simp [countDelay]⟩

theorem submit_frame (p : Port) (r : Request) (s : State) :
    submit p r s = { s with pend := (submit p r s).pend } := by
  unfold submit
  split <;> rfl

/-- A step that answers next, sorted by what it was: a strobe, a tick, a submit, a gate move at a port with nothing
pending, or a command at a port. -/
theorem step_cases {s t : State} (h : step s = .next t) :
    standingRefusal s = none ∧
      ((strobeStart s.strobe = true ∧ t = startTransmit { s with strobe := noStrobe } (strobeLen s.strobe)) ∨
       (strobeStart s.strobe = false ∧ (s.moves = [] ∨ s.moves = .tick :: s.moves.tail)
          ∧ tickStep { s with moves := s.moves.tail } = .next t) ∨
       (strobeStart s.strobe = false ∧ ∃ p r ms, s.moves = .submit p r :: ms ∧ t = submit p r { s with moves := ms }) ∨
       (strobeStart s.strobe = false ∧ ∃ p x y ms, s.moves = .gate p x y :: ms ∧ pending s p = none
          ∧ t = { s with moves := ms }) ∨
       (strobeStart s.strobe = false ∧ ∃ p x y ms r i, s.moves = .gate p x y :: ms ∧ pending s p = some r
          ∧ decodeRequest r = .ok i ∧ i.isCommand = true
          ∧ exec i (selectPort { s with moves := ms } p x y) = .next t)) := by
  obtain ⟨h0, h⟩ := step_next h
  refine ⟨h0, ?_⟩
  rcases h with h | ⟨h1, h2, h3⟩ | ⟨h1, m, ms, h2, h3⟩
  · exact .inl h
  · refine .inr (.inl ⟨h1, .inl h2, ?_⟩)
    cases s
    simp_all
  · refine .inr ?_
    cases m with
    | tick => exact .inl ⟨h1, .inr (by simp [h2]), by rw [h2]; exact h3⟩
    | submit p r => exact .inr (.inl ⟨h1, p, r, ms, h2, by simpa [moveStep] using h3.symm⟩)
    | gate p x y =>
      rcases gateStep_next h3 with ⟨h4, rfl⟩ | ⟨r, i, h4, h5, h6⟩
      · exact .inr (.inr (.inl ⟨h1, p, x, y, ms, h2, h4, rfl⟩))
      · exact .inr (.inr (.inr ⟨h1, p, x, y, ms, r, i, h2, h4, h5, (decodeRequest_command h5).1, h6⟩))

/-- To prove a property of every state a command answers next with, prove it of each outcome (R130, R151, R155,
R166, R167, R170, R171, R54). -/
theorem command_outcome {P : State → Prop} {i : Instr} {s t : State} (hi : i.isCommand = true)
    (h : exec i s = .next t)
    (opened : ∀ n, i = .openDev n → s.ena = false → acquired s (openCount n) = true →
      P (respond (openRegisters (openCount n) s) .ok 0 []))
    (openFailed : s.ena = false → P (raiseError s .initError))
    (rangeError : s.ena = true → P (raiseError s .rangeError))
    (sizeError : s.ena = true → P (raiseError s .sizeError))
    (ended : ∀ l d, i = .write l d → s.ena = true → validLength s l = true → s.lock = true → s.ph = phIdle →
      s.owner = s.grant → P (writeEnd l s))
    (begun : ∀ l d, i = .write l d → s.ena = true → validLength s l = true → s.lock = false → P (writeBegin l d s))
    (copyError : s.ena = true → s.lock = false → P (raiseError s .copyError))
    (blocked : s.ena = true → s.lock = true → P s)
    (snapshot : s.ena = true → s.lock = false → P (readSnapshot s))
    (queried : s.ena = true → P (respond s .ok s.nled []))
    (closedAgain : s.ena = false → P (respond s .ok 0 []))
    (closed : s.ena = true → s.lock = false → P (respond (closeRegisters s) .ok 0 [])) : P t := by
  rcases exec_command_next hi h with ⟨n, hn, h⟩ | ⟨l, d, hw, h⟩ | ⟨_, h⟩ | ⟨_, h⟩ | ⟨_, h⟩
  · obtain ⟨he, ⟨ha, rfl⟩ | ⟨_, rfl⟩⟩ := execOpen_next h
    · exact opened n hn he ha
    · exact openFailed he
  · obtain ⟨he, ⟨_, rfl⟩ | ⟨_, _, rfl⟩ | ⟨a, b, e, rfl⟩ | ⟨_, b, _, rfl⟩ | ⟨a, b, _, rfl⟩ | ⟨_, b, _, rfl⟩⟩ :=
      execWrite_next h
    · exact rangeError he
    · exact sizeError he
    · obtain ⟨_, h2, h3⟩ := transmitReturned_eq_true.1 e
      exact ended l d hw he a b h2 h3
    · exact blocked he b
    · exact begun l d hw he a b
    · exact copyError he b
  · obtain ⟨he, ⟨a, rfl⟩ | ⟨a, rfl⟩⟩ := execRead_next h
    · exact blocked he a
    · exact snapshot he a
  · obtain ⟨he, rfl⟩ := execQuery_next h
    exact queried he
  · rcases execClose_next h with ⟨a, rfl⟩ | ⟨a, b, rfl⟩ | ⟨a, b, rfl⟩
    · exact closedAgain a
    · exact blocked a b
    · exact closed a b

end Sys2Proof.Machine
end

