-- ==== Sys2Proof/Tests/Slice0.lean ====
section
/-! SUPPORT. Tests: ill-formed terms, words written out from the encodings of the spec, single steps from
spec/95_test_vectors.md, and for every statement with hypotheses a witness that meets them. -/

namespace Sys2Proof.Tests

open Sys2Proof.Machine Sys2Proof.Safety

/-! ### Well-formedness (R72) -/

theorem test_wf_refuses_a_short_payload : (Instr.write 3 [1, 2]).wf = false := by decide

theorem test_wf_refuses_a_long_payload : (Instr.write 0 [1]).wf = false := by decide

theorem test_wf_admits_the_exact_payload : (Instr.write 3 [1, 2, 3]).wf = true := by decide

/-! ### Words, bit by bit from the "encoding" strings of spec/opcode_table.json and R71, R80, R82 -/

/-- `arg = 3, has_cfg = 1, op = 000` (V-L1: 0x38). -/
theorem test_word_open :
    decode (.request { hdr := 0b00000000000000000000000000000011_1_000, data := [] }) = .ok (.openDev (some 3)) := by
  decide

/-- `has_cfg = 0`: `arg = 77` is ignored (V-L5: 0x4D0). -/
theorem test_word_open_without_value :
    decode (.request { hdr := 0b00000000000000000000000001001101_0_000, data := [] }) = .ok (.openDev none) := by
  decide

/-- `arg = 3, op = 001`, `has_cfg` ignored whichever it is. -/
theorem test_word_write :
    decode (.request { hdr := 0b00000000000000000000000000000011_0_001, data := [1, 2, 3] }) = .ok (.write 3 [1, 2, 3])
      ∧ decode (.request { hdr := 0b00000000000000000000000000000011_1_001, data := [1, 2, 3] }) =
          .ok (.write 3 [1, 2, 3]) := by
  decide

/-- A payload that is not `arg` bytes makes no record (R72). -/
theorem test_word_write_payload :
    decode (.request { hdr := 0b00000000000000000000000000000011_0_001, data := [1, 2] }) = .error .payloadLength := by
  decide

/-- `op = 010`, the other fields ignored. -/
theorem test_word_read :
    decode (.request { hdr := 0b10000000000000000000000000000001_1_010, data := [] }) = .ok .read := by decide

/-- `op = 011`. -/
theorem test_word_query :
    decode (.request { hdr := 0b00000000000000000000000000000000_0_011, data := [] }) = .ok .query := by decide

/-- `op = 100`. -/
theorem test_word_close :
    decode (.request { hdr := 0b00000000000000000000000000000000_0_100, data := [] }) = .ok .close := by decide

/-- R76: opcodes 5, 6, 7 (V-L11). -/
theorem test_word_reserved :
    decode (.request { hdr := 0x5, data := [] }) = .error (.reservedOpcode 5)
      ∧ decode (.request { hdr := 0x6, data := [] }) = .error (.reservedOpcode 6)
      ∧ decode (.request { hdr := 0x7, data := [] }) = .error (.reservedOpcode 7) := by
  decide

/-- `tx_len` in bits 32..1, `tx_start` in bit 0 (R82). -/
theorem test_word_transmit :
    decode (.strobe 0b10000000000000000000000000000011_1) = .ok (.transmit 0x80000003)
      ∧ decode (.strobe 0b00000000000000000000000000000011_0) = .error .noStrobe := by
  decide

/-- R80, R81. -/
theorem test_word_phases :
    decode (.phase 0b000) = .ok .idle ∧ decode (.phase 0b001) = .ok .clklo ∧ decode (.phase 0b010) = .ok .dset
      ∧ decode (.phase 0b011) = .ok .clkhi ∧ decode (.phase 0b100) = .ok .hold ∧ decode (.phase 0b101) = .ok .latch
      ∧ decode (.phase 0b110) = .ok .lwait ∧ decode (.phase 0b111) = .error .phaseSeven := by
  decide

/-- The table's numbering: a header, a strobe, a phase (log 13). -/
theorem test_table_words :
    decodeTableWord 40 0x31 = some (.write 3 [0, 0, 0]) ∧ decodeTableWord 36 0x18 = some (.openDev (some 1))
      ∧ decodeTableWord 33 0x7 = some (.transmit 3) ∧ decodeTableWord 8 0x4 = some .hold
      ∧ decodeTableWord 8 0x7 = none := by
  decide

/-! ### States the tests and witnesses use -/

/-- The step answered next, and the state passes `p`. -/
def nextHas (o : Result) (p : State → Bool) : Bool :=
  match o with
  | .next t => p t
  | .fault _ => false
  | .refused _ => false

/-- An open device of two LEDs. -/
def opened : State := { State.reset with ena := true, oe := true, nled := 2, fb := [(0, 0x01), (5, 0x80)] }

/-- The device of 95_test_vectors.md section 2.2: three LEDs, every byte 7. -/
def sevens : State :=
  { State.reset with ena := true, oe := true, nled := 3, fb := (List.range 9).map fun i => (i, 7) }

/-- A WRITE of `1 2 3`. -/
def write3 : Request := { hdr := 0x31, data := [1, 2, 3] }

/-- A READ. -/
def read0 : Request := { hdr := 0x2, data := [] }

/-- Port 1's WRITE holds the lock of `opened`, its transmit returned. -/
def held : State := { opened with lock := true, owner := 1, pend := [(1, write3)], txlen := 6, byp := 6 }

/-- The same WRITE's transmit at a position of the sequencer. -/
def sending (ph : Phase) (byp : Word) (bitc : BitVec 3) (dly : Nat) (clk : Bool) : State :=
  { held with ph := ph, byp := byp, bitc := bitc, dly := dly, clk := clk }

/-- `opened` with a request pending at port 1. -/
def asked (r : Request) : State := { opened with pend := [(1, r)] }

/-! ### Single steps from the vectors -/

/-- V-L1, V-L5. -/
theorem test_open :
    nextHas (exec (.openDev (some 3)) State.reset) (fun t => t.ena && t.oe && t.nled == 3
        && frameBytes t == [0, 0, 0, 0, 0, 0, 0, 0, 0] && t.oplog == []) = true
      ∧ nextHas (exec (.openDev none) State.reset) (fun t => t.nled == 20) = true := by
  decide

/-- V-L2, V-L3, V-L4. -/
theorem test_open_fails :
    nextHas (exec (.openDev (some 3)) { State.reset with pinsOk := false })
        (fun t => !t.ena && t.answers == [(0, { st := .initError, value := 0, data := [] })]) = true
      ∧ nextHas (exec (.openDev (some 2000)) State.reset)
        (fun t => !t.ena && t.answers == [(0, { st := .initError, value := 0, data := [] })]) = true
      ∧ nextHas (exec (.openDev (some 1024)) State.reset) (fun t => t.ena) = true := by
  decide

/-- V-W14: `1 2 3` into nine sevens; PEND is kept and TXLEN is 9. -/
theorem test_write_begin :
    nextHas (exec (.write 3 [1, 2, 3]) sevens) (fun t => t.lock && frameBytes t == [1, 2, 3, 0, 0, 0, 0, 0, 0]
      && t.txlen == 9 && t.ph == 1 && t.answers == []) = true := by
  decide

/-- V-W7 (13: misaligned first), V-W12 (`2^32 - 1`: too long, no wrap-around), V-W13. -/
theorem test_write_rejects :
    nextHas (exec (.write 13 []) sevens) (fun t => t.answers == [(0, { st := .rangeError, value := 0, data := [] })]
        && t.fb == sevens.fb) = true
      ∧ nextHas (exec (.write 0xFFFFFFFF []) sevens)
        (fun t => t.answers == [(0, { st := .sizeError, value := 0, data := [] })]) = true
      ∧ nextHas (exec (.write 0xFFFFFFFE []) sevens)
        (fun t => t.answers == [(0, { st := .rangeError, value := 0, data := [] })]) = true := by
  decide

/-- S9 in shape: the answer's value is the whole frame's length, its data the whole frame. -/
theorem test_read :
    nextHas (exec .read opened)
      (fun t => t.answers == [(0, { st := .ok, value := 6, data := [1, 0, 0, 0, 0, 0x80] })]) = true := by
  decide

/-- V-R3: another port's WRITE holds the lock. -/
theorem test_read_waits : nextHas (exec .read held) (fun t => t == held) = true := by decide

/-- V-R4: QUERY does not wait. -/
theorem test_query :
    nextHas (exec .query held) (fun t => t.answers == [(0, { st := .ok, value := 2, data := [] })] && t.lock) = true := by
  decide

/-- V-L6. -/
theorem test_close :
    nextHas (exec .close opened) (fun t => !t.ena && !t.oe
      && t.answers == [(0, { st := .ok, value := 0, data := [] })]) = true := by
  decide

/-- V-L7, V-L8. -/
theorem test_close_again_and_waiting :
    nextHas (exec .close State.reset)
        (fun t => t == { State.reset with answers := [(0, { st := .ok, value := 0, data := [] })] }) = true
      ∧ nextHas (exec .close held) (fun t => t == held) = true := by
  decide

/-- R101, V-E3: the empty transmit goes straight to LATCH. -/
theorem test_transmit :
    nextHas (exec (.transmit 3) opened) (fun t => t.ph == 1 && t.txlen == 3 && t.byp == 0 && t.bitc == 7) = true
      ∧ nextHas (exec (.transmit 0) opened) (fun t => t.ph == 5 && t.txlen == 0) = true := by
  decide

/-- V-E7. -/
theorem test_idle : nextHas (tickStep opened) (fun t => t == { opened with t := 1 }) = true := by decide

/-- V-E2, tick 5: the clock falls, the data stays. -/
theorem test_clklo :
    nextHas (tickStep { sending 1 0 6 0 true with dat := true })
      (fun t => !t.clk && t.dat && t.ph == 2 && t.oplog == [.c0] && t.t == 1) = true := by
  decide

/-- V-E1: bit 7 of 0x80 is 1, of 0x01 is 0; bit 0 of 0x01 is 1. -/
theorem test_dset_msb_first :
    nextHas (tickStep (sending 2 5 7 0 false)) (fun t => t.dat && t.oplog == [.d1] && t.ph == 3) = true
      ∧ nextHas (tickStep (sending 2 0 7 0 false)) (fun t => !t.dat && t.oplog == [.d0]) = true
      ∧ nextHas (tickStep (sending 2 0 0 0 false)) (fun t => t.dat) = true := by
  decide

/-- V-E2, tick 2: with `HOLD_TICKS = 2` DLY becomes 2. -/
theorem test_clkhi :
    nextHas (tickStep { sending 3 0 7 0 false with cfg := { Config.reference with holdTicks := 2 } })
      (fun t => t.clk && t.dly == 2 && t.ph == 4 && t.oplog == [.c1]) = true := by
  decide

/-- V-E5, its rows with a completed hold, for TXLEN = 3. -/
theorem test_hold :
    nextHas (tickStep { sending 4 0 7 1 true with txlen := 3 })
        (fun t => t.ph == 1 && t.dly == 0 && t.bitc == 6 && t.byp == 0 && t.oplog == [.w 1]) = true
      ∧ nextHas (tickStep { sending 4 2 1 1 true with txlen := 3 })
        (fun t => t.ph == 1 && t.dly == 0 && t.bitc == 0 && t.byp == 2) = true
      ∧ nextHas (tickStep { sending 4 0 0 1 true with txlen := 3 })
        (fun t => t.ph == 1 && t.dly == 0 && t.bitc == 7 && t.byp == 1) = true
      ∧ nextHas (tickStep { sending 4 2 0 1 true with txlen := 3 })
        (fun t => t.ph == 5 && t.dly == 0 && t.bitc == 7 && t.byp == 3) = true := by
  decide

/-- V-E5, last row: the hold is not finished and nothing else moves. -/
theorem test_hold_counts :
    nextHas (tickStep { sending 4 2 0 2 true with txlen := 3 })
      (fun t => t == { sending 4 2 0 1 true with txlen := 3, t := 1 }) = true := by
  decide

/-- V-E2, tick 40, with `LATCH_TICKS = 3`. -/
theorem test_latch :
    nextHas (tickStep { sending 5 6 7 0 true with cfg := { Config.reference with latchTicks := 3 } })
      (fun t => !t.clk && t.dly == 3 && t.ph == 6 && t.oplog == [.c0]) = true := by
  decide

/-- V-E2, ticks 42 and 43: the event names `LATCH_TICKS`. -/
theorem test_lwait :
    nextHas (tickStep (sending 6 6 7 2 false)) (fun t => t.ph == 6 && t.dly == 1 && t.oplog == []) = true
      ∧ nextHas (tickStep (sending 6 6 7 1 false)) (fun t => t.ph == 0 && t.dly == 0 && t.oplog == [.l 1000]) = true := by
  decide

/-- A placed word is what the next step runs (log 14): OPEN 1 and TRANSMIT(3) as the first step after reset. -/
theorem test_fetch :
    nextHas (step (State.reset.withFetchWord 40 0x18)) (fun t => t.ena && t.nled == 1) = true
      ∧ nextHas (step (State.reset.withFetchWord 33 0x7)) (fun t => t.txlen == 3 && t.ph == 1) = true := by
  decide

/-! ### States that meet the invariant -/

theorem opened_inv : Inv opened where
  cfgOk := by decide
  strobeIdle := by decide
  pendSorted := by decide
  memWf := by decide
  memWithin := by decide
  nledFits := by decide
  oeIsEna := by decide
  closedAtRest := by decide
  busyHoldsLock := by decide
  holder := fun h => absurd h (by decide)
  bypInRange := by decide
  bypInFrame := by decide
  dlyAtRest := by decide
  dlyCounting := by decide
  dlyFits := by decide
  phaseLegal := by decide
  clock := by
    unfold clockMatchesPhase
    decide

theorem held_owner : ownerWrites held := ⟨write3, 3, [1, 2, 3], by decide, by decide, by decide⟩

/-- The transmit of `sending` meets the invariant at every position that R26 (e) to (h) admit. -/
theorem sending_inv (ph : Phase) (byp : Word) (bitc : BitVec 3) (dly : Nat) (clk : Bool) (hp : ph ≠ 7)
    (hb : byp.toNat ≤ 6) (hf : ph = 1 ∨ ph = 2 ∨ ph = 3 ∨ ph = 4 → byp.toNat < 6)
    (hr : ph ≠ 4 → ph ≠ 6 → dly = 0) (hc : ph = 4 ∨ ph = 6 → 1 ≤ dly) (hd : dly < 1024)
    (hk : clockMatchesPhase (sending ph byp bitc dly clk)) : Inv (sending ph byp bitc dly clk) where
  cfgOk := (by decide : Config.reference.ok = true)
  strobeIdle := (by decide : noStrobeStands held = true)
  pendSorted := rfl
  memWf := (by decide : Memory.wf held.fb = true)
  memWithin := (by decide : Memory.within (frameLen held) held.fb = true)
  nledFits := (by decide : held.ena = true → held.nled.toNat ≤ held.cfg.maxLeds)
  oeIsEna := rfl
  closedAtRest := fun h => absurd h (by decide : ¬held.ena = false)
  busyHoldsLock := fun _ => rfl
  holder := fun _ => ⟨held_owner, (by decide : held.txlen.toNat = frameLen held)⟩
  bypInRange := hb
  bypInFrame := hf
  dlyAtRest := hr
  dlyCounting := hc
  dlyFits := Nat.lt_of_lt_of_eq hd (by decide : 1024 = 2 ^ Config.reference.dlyW)
  phaseLegal := hp
  clock := hk

theorem sending_hold_inv : Inv (sending 4 5 0 1 true) :=
  sending_inv 4 5 0 1 true (by decide) (by decide) (by decide) (by decide) (by decide) (by decide)
    (by unfold clockMatchesPhase; decide)

theorem sending_clkhi_inv : Inv (sending 3 0 7 0 false) :=
  sending_inv 3 0 7 0 false (by decide) (by decide) (by decide) (by decide) (by decide) (by decide)
    (by unfold clockMatchesPhase; decide)

theorem sending_dset_inv : Inv (sending 2 0 0 0 false) :=
  sending_inv 2 0 0 0 false (by decide) (by decide) (by decide) (by decide) (by decide) (by decide)
    (by unfold clockMatchesPhase; decide)

theorem sending_lwait_inv : Inv (sending 6 6 7 1 false) :=
  sending_inv 6 6 7 1 false (by decide) (by decide) (by decide) (by decide) (by decide) (by decide)
    (by unfold clockMatchesPhase; decide)

/-- The invariant says nothing of MOVES. -/
theorem inv_with_moves {s : State} (h : Inv s) (ms : List Move) : Inv { s with moves := ms } :=
  ⟨h.1, h.2, h.3, h.4, h.5, h.6, h.7, h.8, h.9, h.10, h.11, h.12, h.13, h.14, h.15, h.16, h.17⟩

/-- A request pending while the lock is free does not disturb the invariant. -/
theorem asked_inv (r : Request) : Inv (asked r) :=
  have h := opened_inv
  ⟨h.1, h.2, rfl, h.4, h.5, h.6, h.7, h.8, h.9, fun hl => absurd hl (by decide : ¬opened.lock = true),
    h.11, h.12, h.13, h.14, h.15, h.16, h.17⟩

/-! ### Witnesses: states and operands that meet the hypotheses of each statement -/

theorem witness_DecodeOfEncodeIsTheInstruction :
    (Instr.write 0 []).wf = true ∧ (Instr.write 3 [1, 2, 3]).wf = true ∧ (Instr.openDev (some 0xFFFFFFFF)).wf = true
      ∧ (Instr.transmit 0xFFFFFFFF).wf = true ∧ Instr.lwait.wf = true := by
  decide

theorem witness_EachWordHasOneMeaning :
    decode (.strobe 0x1FFFFFFFF) = .ok (.transmit 0xFFFFFFFF) ∧ decode (.phase 6) = .ok .lwait
      ∧ decode (.request { hdr := 0xA, data := [] }) = .ok .read
      ∧ (decode (.request { hdr := 0x4D8, data := [] }) = .ok (.openDev (some 77)) ∧ headerOp 0x4D8 = 0
          ∧ headerHasCfg 0x4D8 = true)
      ∧ (decode (.request { hdr := 0x4D0, data := [] }) = .ok (.openDev none) ∧ headerOp 0x4D0 = 0)
      ∧ (decode (.request { hdr := 0x39, data := [1, 2, 3] }) = .ok (.write 3 [1, 2, 3]) ∧ headerOp 0x39 = 1) := by
  decide

theorem witness_HeaderFieldsSelectTheCommand :
    ([] : List Byte).length = (0 : Word).toNat ∧ write3.data.length = (3 : Word).toNat
      ∧ ((5 : BitVec 3) = 5 ∨ (5 : BitVec 3) = 6 ∨ (5 : BitVec 3) = 7)
      ∧ ((7 : BitVec 3) = 5 ∨ (7 : BitVec 3) = 6 ∨ (7 : BitVec 3) = 7) := by
  decide

theorem witness_RequestsWithoutMeaningAreRefused :
    (pending (asked { hdr := 5, data := [] }) 1 = some { hdr := 5, data := [] } ∧ 5 ≤ (headerOp 5).toNat)
      ∧ (pending (asked { hdr := 0x38, data := [] }) 1 = some { hdr := 0x38, data := [] } ∧ headerOp 0x38 = 0
          ∧ (asked { hdr := 0x38, data := [] }).ena = true)
      ∧ (pending { State.reset with pend := [(0, read0)] } 0 = some read0 ∧ headerOp read0.hdr = 2
          ∧ State.reset.ena = false)
      ∧ (headerOp write3.hdr = 1 ∧ headerOp 3 = 3) := by
  decide

theorem witness_CommandsWithoutMeaningAreRefused : opened.ena = true ∧ State.reset.ena = false := by decide

theorem witness_PhaseSevenIsRefused :
    (sending 7 0 7 0 false).ph = 7 ∧ standingRefusal (sending 7 0 7 0 false) = none
      ∧ noStrobeStands (sending 7 0 7 0 false) = true ∧ ticksNext (sending 7 0 7 0 false) = true := by
  decide

theorem witness_DsetSendsTheCurrentBit : (sending 2 5 7 0 false).byp.toNat < 3 * (sending 2 5 7 0 false).nled.toNat := by
  decide

theorem witness_DsetOutsideTheFrameFaults :
    3 * (sending 2 6 7 0 false).nled.toNat ≤ (sending 2 6 7 0 false).byp.toNat
      ∧ 3 * State.reset.nled.toNat ≤ State.reset.byp.toNat := by
  decide

/-- The last bit of the last byte, the last bit of a byte, another bit, an unfinished hold. -/
theorem witness_HoldCountsThenMovesOn :
    (1 ≤ (sending 4 5 0 1 true).dly ∧ (sending 4 5 0 1 true).byp.toNat < (sending 4 5 0 1 true).txlen.toNat)
      ∧ (1 ≤ (sending 4 4 0 1 true).dly ∧ (sending 4 4 0 1 true).byp.toNat < (sending 4 4 0 1 true).txlen.toNat)
      ∧ (1 ≤ (sending 4 0 7 1 true).dly ∧ (sending 4 0 7 1 true).byp.toNat < (sending 4 0 7 1 true).txlen.toNat)
      ∧ (1 ≤ (sending 4 5 0 2 true).dly ∧ (sending 4 5 0 2 true).byp.toNat < (sending 4 5 0 2 true).txlen.toNat) := by
  decide

theorem witness_LwaitCountsThenReturns : 1 ≤ (sending 6 6 7 1 false).dly ∧ 1 ≤ (sending 6 6 7 1000 false).dly := by
  decide

theorem witness_PhasesCompleteWithTheirFrame :
    Instr.idle.isPhase = true ∧ Instr.clklo.isPhase = true ∧ Instr.clkhi.isPhase = true ∧ Instr.hold.isPhase = true
      ∧ Instr.latch.isPhase = true ∧ Instr.lwait.isPhase = true ∧ Instr.dset.isPhase = true
      ∧ (sending 2 5 7 0 false).byp.toNat < frameLen (sending 2 5 7 0 false) := by
  decide

/-- Each row of R110: the step answers next and the row's conditions hold. -/
theorem witness_EncoderFollowsTheNextPhaseTable :
    nextHas (tickStep opened) (fun _ => opened.ph == 0) = true
      ∧ nextHas (tickStep (sending 1 0 7 0 false)) (fun _ => true) = true
      ∧ nextHas (tickStep (sending 2 5 7 0 false)) (fun _ => true) = true
      ∧ nextHas (tickStep (sending 3 0 7 0 false)) (fun _ => true) = true
      ∧ (nextHas (tickStep (sending 4 5 0 2 true)) (fun _ => true) = true ∧ 1 < (sending 4 5 0 2 true).dly)
      ∧ (nextHas (tickStep (sending 4 5 1 1 true)) (fun _ => true) = true ∧ (sending 4 5 1 1 true).bitc ≠ 0)
      ∧ (nextHas (tickStep (sending 4 4 0 1 true)) (fun _ => true) = true
          ∧ (sending 4 4 0 1 true).byp.toNat + 1 < (sending 4 4 0 1 true).txlen.toNat)
      ∧ (nextHas (tickStep (sending 4 5 0 1 true)) (fun _ => true) = true
          ∧ (sending 4 5 0 1 true).byp.toNat + 1 = (sending 4 5 0 1 true).txlen.toNat)
      ∧ nextHas (tickStep (sending 5 6 7 0 true)) (fun _ => true) = true
      ∧ nextHas (tickStep (sending 6 6 7 2 false)) (fun _ => true) = true
      ∧ nextHas (tickStep (sending 6 6 7 1 false)) (fun _ => true) = true := by
  decide

/-- The steps that are no tick and move the position: a write-begin, a standing strobe, and an OPEN, here from a
position a former transmit left. -/
theorem witness_EncoderFollowsTheNextPhaseTable_no_tick :
    nextHas (step { asked write3 with moves := [.gate 1 true true] }) (fun t => t.t == 0 && t.ph != 0) = true
      ∧ nextHas (step { opened with strobe := 7 }) (fun t => t.t == 0 && t.ph != 0) = true
      ∧ nextHas (step { State.reset with byp := 3, pend := [(0, encodeOpen (some 3))], moves := [.gate 0 true true] })
          (fun t => t.t == 0 && t.byp != 3) = true := by
  decide

/-- By a write-begin, and by a strobe that stands. -/
theorem witness_EncoderLeavesIdleOnlyByTransmit :
    ((asked write3).ph = phIdle
        ∧ nextHas (step { asked write3 with moves := [.gate 1 true true] }) (fun t => t.ph != phIdle) = true)
      ∧ nextHas (step { opened with strobe := 7 }) (fun t => t.ph != phIdle) = true := by
  decide

/-- The whole frame, and the empty transmit. -/
theorem witness_TransmitPutsTheFrameOnThePins :
    1 ≤ opened.cfg.holdTicks ∧ 1 ≤ opened.cfg.latchTicks ∧ (6 : Word).toNat ≤ frameLen opened
      ∧ (0 : Word).toNat ≤ frameLen opened ∧ opened.moves = [] ∧ noStrobeStands opened = true
      ∧ standingRefusal opened = none ∧ nextHas (exec (.transmit 6) opened) (fun _ => true) = true
      ∧ nextHas (exec (.transmit 0) opened) (fun _ => true) = true := by
  decide

/-- Also with a WRITE pending, as in a real run. -/
theorem witness_RisingEdgeReceiverGetsTheFrame :
    1 ≤ held.cfg.holdTicks ∧ 1 ≤ held.cfg.latchTicks ∧ (6 : Word).toNat ≤ frameLen held ∧ held.moves = []
      ∧ noStrobeStands held = true ∧ standingRefusal held = none
      ∧ nextHas (exec (.transmit 6) held) (fun _ => true) = true := by
  decide

/-- A tick, a step that is no tick, and a write-begin. -/
theorem witness_TransmitTimeIsExactUnderEverySchedule :
    (Inv (sending 4 5 0 1 true) ∧ (∃ t, step (sending 4 5 0 1 true) = .next t)
        ∧ (sending 4 5 0 1 true).ph ≠ phIdle)
      ∧ (Inv { sending 4 5 0 1 true with moves := [.submit 2 read0] }
        ∧ ∃ t, step { sending 4 5 0 1 true with moves := [.submit 2 read0] } = .next t)
      ∧ (Inv { asked write3 with moves := [.gate 1 true true] }
        ∧ ∃ t, step { asked write3 with moves := [.gate 1 true true] } = .next t ∧ t.ph ≠ phIdle) :=
  ⟨⟨sending_hold_inv, ⟨_, rfl⟩, by decide⟩, ⟨inv_with_moves sending_hold_inv _, ⟨_, rfl⟩⟩,
    inv_with_moves (asked_inv write3) _, ⟨_, rfl, by decide⟩⟩

/-- A QUERY answered while the transmit runs. -/
theorem witness_GateStepsNeverDisturbATransmit :
    Inv { sending 4 5 0 1 true with moves := [.submit 2 read0] } ∧ (sending 4 5 0 1 true).ph ≠ phIdle
      ∧ ∃ t, step { sending 4 5 0 1 true with moves := [.submit 2 read0] } = .next t ∧ t.t = 0 :=
  ⟨inv_with_moves sending_hold_inv _, by decide, ⟨_, rfl, rfl⟩⟩

/-- A DSET that changes DAT, a CLKHI that raises the clock. -/
theorem witness_DataChangesOnlyWhileTheClockIsLow :
    (Inv (sending 2 0 0 0 false) ∧ ∃ t, step (sending 2 0 0 0 false) = .next t ∧ t.dat ≠ (sending 2 0 0 0 false).dat)
      ∧ (Inv (sending 3 0 7 0 false) ∧ (sending 3 0 7 0 false).clk = false
        ∧ ∃ t, step (sending 3 0 7 0 false) = .next t ∧ t.clk = true) :=
  ⟨⟨sending_dset_inv, ⟨_, rfl, by decide⟩⟩, sending_clkhi_inv, rfl, ⟨_, rfl, rfl⟩⟩

theorem witness_ClockStaysHighThroughTheHold :
    (sending 3 5 0 0 false).ph = phClkhi ∧ 1 ≤ (sending 3 5 0 0 false).cfg.holdTicks
      ∧ (sending 3 5 0 0 false).moves = [] ∧ noStrobeStands (sending 3 5 0 0 false) = true
      ∧ standingRefusal (sending 3 5 0 0 false) = none := by
  decide

theorem witness_LatchWaitRunsToItsEnd :
    (sending 5 6 7 0 true).ph = phLatch ∧ 1 ≤ (sending 5 6 7 0 true).cfg.latchTicks
      ∧ (sending 5 6 7 0 true).moves = [] ∧ noStrobeStands (sending 5 6 7 0 true) = true
      ∧ standingRefusal (sending 5 6 7 0 true) = none := by
  decide

theorem witness_MisalignedWriteIsRangeError : opened.ena = true ∧ (1 : Word).toNat % 3 ≠ 0 ∧ (8 : Word).toNat % 3 ≠ 0 := by
  decide

theorem witness_TooLongWriteIsSizeError :
    (held.ena = true ∧ (9 : Word).toNat % 3 = 0 ∧ held.nled.toNat < (9 : Word).toNat / 3)
      ∧ ((6 : Word).toNat / 3 = opened.nled.toNat
          ∧ nextHas (exec (.write 6 [1, 2, 3, 4, 5, 6]) opened) (fun t => t.answers == []) = true)
      ∧ nextHas (exec (.write 8 []) opened)
          (fun t => t.answers == [(0, { st := .rangeError, value := 0, data := [] })]) = true := by
  decide

theorem witness_FailedCopyIsCopyError :
    { opened with copyOk := false }.ena = true ∧ { opened with copyOk := false }.lock = false
      ∧ (6 : Word).toNat % 3 = 0 ∧ (6 : Word).toNat / 3 ≤ opened.nled.toNat := by
  decide

/-- The longest and the empty candidate. -/
theorem witness_WriteBeginStoresAndStartsTheEncoder :
    opened.ena = true ∧ opened.lock = false ∧ opened.copyOk = true
      ∧ [(1 : Byte), 2, 3, 4, 5, 6].length = (6 : Word).toNat ∧ (6 : Word).toNat % 3 = 0
      ∧ (6 : Word).toNat / 3 ≤ opened.nled.toNat ∧ ([] : List Byte).length = (0 : Word).toNat
      ∧ (0 : Word).toNat / 3 ≤ opened.nled.toNat ∧ 3 * opened.nled.toNat < 2 ^ 32 := by
  decide

theorem witness_WriteEndReleasesAndAnswers :
    { held with grant := 1 }.ena = true ∧ { held with grant := 1 }.lock = true ∧ { held with grant := 1 }.ph = 0
      ∧ { held with grant := 1 }.owner = { held with grant := 1 }.grant ∧ (3 : Word).toNat % 3 = 0
      ∧ (3 : Word).toNat / 3 ≤ held.nled.toNat := by
  decide

/-- The holder whose transmit runs, and another port. -/
theorem witness_BlockedCommandsWait :
    held.ena = true ∧ held.lock = true ∧ (3 : Word).toNat % 3 = 0 ∧ (3 : Word).toNat / 3 ≤ held.nled.toNat
      ∧ (sending 6 6 7 1 false).ph ≠ 0 ∧ held.owner ≠ held.grant := by
  decide

theorem witness_ReadReturnsWhatTheWriteStored :
    ∃ u v : State, opened.ena = true ∧ opened.lock = false ∧ opened.copyOk = true ∧ (6 : Word).toNat % 3 = 0
      ∧ (6 : Word).toNat / 3 ≤ opened.nled.toNat ∧ 3 * opened.nled.toNat < 2 ^ 32
      ∧ exec (.write 6 [1, 2, 3, 4, 5, 6]) opened = .next u ∧ v.fb = u.fb ∧ v.nled = u.nled ∧ v.ena = true
      ∧ v.lock = false :=
  ⟨_, { writeBegin 6 [1, 2, 3, 4, 5, 6] opened with lock := false }, by decide, by decide, by decide, by decide,
    by decide, by decide, rfl, rfl, rfl, by decide, rfl⟩

theorem witness_AcceptedWriteRunsToItsAnswer :
    ∃ s : State, Inv s ∧ s.ena = true ∧ s.lock = false ∧ standingRefusal s = none ∧ pending s 1 = some write3
      ∧ decodeRequest write3 = .ok (.write 3 [1, 2, 3]) ∧ validLength s 3 = true
      ∧ s.moves = .gate 1 true true ::
          (List.replicate (transmitTicks s.cfg (frameLen s)) .tick ++ [.gate 1 true true]) :=
  ⟨{ asked write3 with
      moves := .gate 1 true true ::
        (List.replicate (transmitTicks opened.cfg (frameLen opened)) .tick ++ [.gate 1 true true]) },
    inv_with_moves (asked_inv write3) _, rfl, rfl, (by decide : standingRefusal (asked write3) = none),
    (by decide : pending (asked write3) 1 = some write3), by decide, (by decide : validLength opened 3 = true), rfl⟩

/-- The holder's write-end, and a tick of its transmit. -/
theorem witness_LockedFrameIsLeftAlone :
    (Inv { sending 0 6 7 0 false with moves := [.gate 1 true true] }
        ∧ ∃ t, step { sending 0 6 7 0 false with moves := [.gate 1 true true] } = .next t ∧ t.lock = false)
      ∧ (Inv (sending 6 6 7 1 false) ∧ ∃ t, step (sending 6 6 7 1 false) = .next t ∧ t.lock = true) :=
  ⟨⟨inv_with_moves (sending_inv 0 6 7 0 false (by decide) (by decide) (by decide) (by decide) (by decide) (by decide)
    (by unfold clockMatchesPhase; decide)) _, ⟨_, rfl, rfl⟩⟩, sending_lwait_inv, ⟨_, rfl, rfl⟩⟩

/-- A write-begin, and the last tick of a latch. -/
theorem witness_OneTransmitPerAcceptedWrite :
    (Inv { asked write3 with moves := [.gate 1 true true] }
        ∧ ∃ t, step { asked write3 with moves := [.gate 1 true true] } = .next t ∧ t.lock = true)
      ∧ (Inv (sending 6 6 7 1 false) ∧ ∃ t, step (sending 6 6 7 1 false) = .next t ∧ latchCount t.oplog = 1) :=
  ⟨⟨inv_with_moves (asked_inv write3) _, ⟨_, rfl, rfl⟩⟩, sending_lwait_inv, ⟨_, rfl, rfl⟩⟩

theorem witness_ReadAnswersTheWholeFrame :
    opened.ena = true ∧ opened.lock = false ∧ 3 * opened.nled.toNat < 2 ^ 32 := by
  decide

theorem witness_QueryAnswersTheLedCount : held.ena = true := rfl

theorem witness_LedCountIsFixedWhileOpen :
    ∃ t, step { asked write3 with moves := [.gate 1 true true] } = .next t ∧ (asked write3).ena = true ∧ t.ena = true :=
  ⟨_, rfl, rfl, rfl⟩

/-- The largest count that fits, and no configuration value. -/
theorem witness_OpenGivesAFreshDevice :
    State.reset.ena = false ∧ State.reset.pinsOk = true ∧ (1024 : Word).toNat ≤ State.reset.cfg.maxLeds
      ∧ (20 : Word).toNat ≤ State.reset.cfg.maxLeds
      ∧ ((none : Option Word) = some 20 ∨ ((none : Option Word) = none ∧ (20 : Word) = 20)) := by
  decide

theorem witness_OpenFailureIsInitError :
    State.reset.ena = false ∧ State.reset.cfg.maxLeds < (1025 : Word).toNat
      ∧ { State.reset with pinsOk := false }.pinsOk = false := by
  decide

theorem witness_CloseReleasesPinsAndBuffer : opened.ena = true ∧ opened.lock = false := by decide

theorem witness_CloseOnAClosedDeviceDoesNothing : State.reset.ena = false := rfl

/-- A standing strobe; a tick chosen and a tick by default; a gate move. -/
theorem witness_StepRunsTheFetchedInstruction :
    (standingRefusal { opened with strobe := 7 } = none ∧ strobeStart { opened with strobe := 7 }.strobe = true)
      ∧ (standingRefusal opened = none ∧ strobeStart opened.strobe = false ∧ ticksNext opened = true
          ∧ ticksNext { opened with moves := [.tick] } = true ∧ decodePhase opened.ph = .ok .idle)
      ∧ (standingRefusal { asked write3 with moves := [.gate 1 true true] } = none
          ∧ pending (asked write3) 1 = some write3 ∧ decodeRequest write3 = .ok (.write 3 [1, 2, 3])) := by
  decide

theorem witness_SubmitFillsAFreePort :
    standingRefusal { held with moves := [.submit 2 read0] } = none
      ∧ noStrobeStands { held with moves := [.submit 2 read0] } = true
      ∧ pending { held with moves := [.submit 2 read0] } 2 = none := by
  decide

theorem witness_MovesNotEnabledChangeNothing :
    standingRefusal { held with moves := [.submit 1 read0] } = none
      ∧ noStrobeStands { held with moves := [.submit 1 read0] } = true
      ∧ pending { held with moves := [.submit 1 read0] } 1 = some write3
      ∧ pending { held with moves := [.gate 0 true true] } 0 = none := by
  decide

/-- A tick, a strobe, a gate move. -/
theorem witness_OnlyTicksMoveTimeAndTheLog :
    (∃ t, step (sending 4 5 0 1 true) = .next t) ∧ (∃ t, step { opened with strobe := 7 } = .next t)
      ∧ ∃ t, step { asked write3 with moves := [.gate 1 true true] } = .next t :=
  ⟨⟨_, rfl⟩, ⟨_, rfl⟩, ⟨_, rfl⟩⟩

/-- A WRITE of 9 bytes to two LEDs. -/
theorem witness_ErrorsChangeNothingElse :
    ∃ t r, step { asked { hdr := 0x91, data := List.replicate 9 0 } with moves := [.gate 1 true true] } = .next t
      ∧ t.answers = [] ++ [(1, r)] ∧ r.st ≠ .ok :=
  ⟨_, { st := .sizeError, value := 0, data := [] }, rfl, rfl, by decide⟩

theorem witness_OneAnswerPerRequest :
    ∃ t, step { asked read0 with moves := [.gate 1 true true] } = .next t ∧ t.answers.length = 1 :=
  ⟨_, rfl, rfl⟩

theorem witness_OtherPortsAreNotDisturbed :
    noStrobeStands { asked read0 with moves := [.gate 1 true true] } = true
      ∧ ∃ t, step { asked read0 with moves := [.gate 1 true true] } = .next t :=
  ⟨by decide, ⟨_, rfl⟩⟩

theorem witness_AnyWaitingPortMayBeNext :
    Inv (asked read0) ∧ standingRefusal (asked read0) = none ∧ (asked read0).lock = false
      ∧ pending (asked read0) 1 = some read0 :=
  ⟨asked_inv read0, by decide, by decide, by decide⟩

theorem witness_RestOnlyCountsTime : atRest opened = true ∧ opened.moves = [] ∧ noStrobeStands opened = true := by
  decide

theorem witness_PowerOnRegisterValues :
    (Sys2Proof.core.reset = Sys2Proof.core.reset ∨ ∃ c, Sys2Proof.core.reset = State.powerOn c)
      ∧ ∃ c, State.powerOn { Config.reference with maxLeds := 7 } = State.powerOn c :=
  ⟨.inl rfl, _, rfl⟩

theorem witness_PowerOnMeetsTheInvariant :
    Config.reference.ok = true
      ∧ { maxLeds := 1431655765, tickNs := 1, holdTicks := 1000, latchTicks := 1000000 : Config }.ok = true := by
  decide

theorem witness_StepKeepsTheInvariant : Inv (sending 4 5 0 1 true) ∧ ∃ t, step (sending 4 5 0 1 true) = .next t :=
  ⟨sending_hold_inv, ⟨_, rfl⟩⟩

theorem witness_InvariantStatesNeverFault : Inv (sending 2 0 0 0 false) := sending_dset_inv

end Sys2Proof.Tests
end

section
/-! SUPPORT and PROOF. The invariant of R26 step by step (spec/10_state.md): what the environment's choices, the
responses, the commands and the ticks do to it, and the claims about `step` that read off its inversion lemmas. -/

namespace Sys2Proof.Safety

open Sys2Proof.Machine

/-! ### R26 (e) to (h) as a table -/

/-- R26 (e) to (h) and R25, read off the phase (R110): where BYP stands, what DLY holds and the level of CLK. -/
def positionTable (s : State) : Prop :=
  s.byp.toNat ≤ s.txlen.toNat ∧ s.dly < 2 ^ s.cfg.dlyW ∧
    match s.ph.toNat with
    | 0 => s.dly = 0 ∧ s.clk = false
    | 1 => s.byp.toNat < s.txlen.toNat ∧ s.dly = 0 ∧ s.clk = !(s.byp == 0 && s.bitc == 7)
    | 2 => s.byp.toNat < s.txlen.toNat ∧ s.dly = 0 ∧ s.clk = false
    | 3 => s.byp.toNat < s.txlen.toNat ∧ s.dly = 0 ∧ s.clk = false
    | 4 => s.byp.toNat < s.txlen.toNat ∧ 1 ≤ s.dly ∧ s.clk = true
    | 5 => s.dly = 0 ∧ s.clk = decide (0 < s.txlen.toNat)
    | 6 => 1 ≤ s.dly ∧ s.clk = false
    | _ => False

theorem Inv.position {s : State} (h : Inv s) : positionTable s := by
  refine ⟨h.bypInRange, h.dlyFits, ?_⟩
  obtain ⟨hlow, hhold, hlatch, hclklo⟩ := h.clock
  have hlegal := h.phaseLegal
  have hframe := h.bypInFrame
  have hrest := h.dlyAtRest
  have hcount := h.dlyCounting
  rcases phase_cases s.ph with hp | hp | hp | hp | hp | hp | hp | hp <;> simp_all

/-- The clauses of `Inv` that the table stands for. -/
theorem clauses_of_positionTable {s : State} (h : positionTable s) :
    (s.ph = phClklo ∨ s.ph = phDset ∨ s.ph = phClkhi ∨ s.ph = phHold → s.byp.toNat < s.txlen.toNat)
      ∧ (s.ph ≠ phHold → s.ph ≠ phLwait → s.dly = 0) ∧ (s.ph = phHold ∨ s.ph = phLwait → 1 ≤ s.dly)
      ∧ s.ph ≠ 7 ∧ clockMatchesPhase s := by
  obtain ⟨-, -, h⟩ := h
  unfold clockMatchesPhase
  rcases phase_cases s.ph with hp | hp | hp | hp | hp | hp | hp | hp <;> simp_all

theorem le_maxLeds_of_acquired {s : State} {n : Word} (ha : acquired s n = true) : n.toNat ≤ s.cfg.maxLeds := by
  simp only [acquired, Bool.and_eq_true, decide_eq_true_eq] at ha
  exact ha.2

section
variable {s : State} (h : Inv s)
include h

/-! ### The clauses that later proofs ask for -/

theorem Inv.strobeStart_eq_false : strobeStart s.strobe = false := by
  simpa [noStrobeStands] using h.strobeIdle

theorem Inv.ph_of_free (hl : s.lock = false) : s.ph = phIdle := by
  by_contra hp
  simp [h.busyHoldsLock hp] at hl

theorem Inv.ena_of_lock (hl : s.lock = true) : s.ena = true := by
  by_contra he
  simp [(h.closedAtRest (by simpa using he)).1] at hl

theorem Inv.clk_of_idle (hp : s.ph = phIdle) : s.clk = false := h.clock.1 (.inl hp)

/-- R60: on an open device `3 * NLED` fits 32 bits. -/
theorem Inv.frameLen_lt (he : s.ena = true) : frameLen s < 2 ^ 32 := by
  have hn := h.nledFits he
  have hc := h.cfgOk
  simp only [Config.ok, colorBytes, Bool.and_eq_true, decide_eq_true_eq] at hc
  simp only [frameLen, colorBytes]
  omega

/-- R26 (d), (e): the byte the encoder is at lies in the frame. -/
theorem Inv.byp_lt_frameLen (hp : s.ph = phClklo ∨ s.ph = phDset ∨ s.ph = phClkhi ∨ s.ph = phHold) :
    s.byp.toNat < frameLen s := by
  have hl : s.lock = true := h.busyHoldsLock (by rcases hp with hp | hp | hp | hp <;> simp [hp])
  exact (h.holder hl).2 ▸ h.bypInFrame hp

/-! ### The environment's choices and the requests -/

theorem Inv.after_moves (ms : List Move) : Inv { s with moves := ms } := { h with }

theorem Inv.after_selectPort (p : Port) (x y : Bool) : Inv (selectPort s p x y) := { h with }

/-- R63: a new request leaves the lock holder's WRITE where it is. -/
theorem Inv.after_submit (p : Port) (r : Request) : Inv (submit p r s) := by
  cases hp : pending s p with
  | some r' => rwa [submit_of_busy hp]
  | none =>
    rw [submit_of_free hp]
    refine { h with pendSorted := kvSorted_put h.pendSorted, holder := fun hl => ?_ }
    obtain ⟨⟨r', len, data, hr, hd, hv⟩, htx⟩ := h.holder hl
    have hne : s.owner ≠ p := by
      rintro rfl
      simp [hp] at hr
    exact ⟨⟨r', len, data, by simpa [pending, kvGet_put, hne] using hr, hd, hv⟩, htx⟩

/-! ### The commands -/

/-- A response to another port than the lock holder's keeps R26 (d). -/
theorem Inv.after_respond (hg : s.lock = true → s.owner ≠ s.grant) (st : Status) (v : Word) (d : List Byte) :
    Inv (respond s st v d) := by
  refine { h with pendSorted := kvSorted_drop (fun k => k == s.grant) h.pendSorted, holder := fun hl => ?_ }
  obtain ⟨⟨r, len, data, hr, hd, hv⟩, htx⟩ := h.holder hl
  exact ⟨⟨r, len, data, by simpa [hg hl] using hr, hd, hv⟩, htx⟩

/-- R151: a snapshot is a response; the free values it counts are no register. -/
theorem Inv.after_readSnapshot (hl : s.lock = false) : Inv (readSnapshot s) :=
  Inv.after_respond (s := { s with draws := narrowDraws s (frameLen s) }) { h with } (by simp [hl]) _ _ _

/-- R166: the register writes of open. -/
theorem Inv.after_openRegisters {n : Word} (hn : n.toNat ≤ s.cfg.maxLeds) : Inv (openRegisters n s) :=
  { h with
    memWf := rfl
    memWithin := rfl
    nledFits := fun _ => hn
    oeIsEna := rfl
    closedAtRest := by simp
    busyHoldsLock := by simp
    holder := by simp
    bypInRange := by simp
    bypInFrame := by simp
    dlyAtRest := by simp
    dlyCounting := by simp
    dlyFits := Nat.two_pow_pos _
    phaseLegal := by simp
    clock := by simp [clockMatchesPhase] }

/-- R170: the register writes of close, the lock being free. -/
theorem Inv.after_closeRegisters (hl : s.lock = false) : Inv (closeRegisters s) :=
  { h with
    memWf := Memory.wf_ofBytes _
    memWithin := Memory.within_ofBytes (List.length_take_le _ _)
    nledFits := by simp
    oeIsEna := rfl
    closedAtRest := fun _ => ⟨hl, h.ph_of_free hl⟩
    holder := by simp [hl] }

/-- R136: the lock is released once the encoder is idle. -/
theorem Inv.after_writeEnd (hp : s.ph = phIdle) (len : Word) : Inv (writeEnd len s) :=
  have hfree : Inv { s with lock := false } :=
    { h with
      closedAtRest := fun _ => ⟨rfl, hp⟩
      busyHoldsLock := fun hb => absurd hp hb
      holder := by simp }
  hfree.after_respond (by simp) _ _ _

/-- The invariant after a change of the sequencer's position alone, while the lock is held. -/
theorem Inv.of_positionTable {t : State} (hl : s.lock = true)
    (ht : t = { s with
        clk := t.clk
        dat := t.dat
        ph := t.ph
        byp := t.byp
        bitc := t.bitc
        dly := t.dly
        oplog := t.oplog
        draws := t.draws
        t := t.t })
    (hpos : positionTable t) : Inv t := by
  rw [ht] at hpos ⊢
  obtain ⟨hframe, hrest, hcount, hlegal, hclock⟩ := clauses_of_positionTable hpos
  exact
    { h with
      closedAtRest := by simp [h.ena_of_lock hl]
      busyHoldsLock := fun _ => hl
      bypInRange := hpos.1
      bypInFrame := hframe
      dlyAtRest := hrest
      dlyCounting := hcount
      dlyFits := hpos.2.1
      phaseLegal := hlegal
      clock := hclock }

/-- R134: a write-begin at the port of a valid WRITE takes the lock with the encoder still idle, and TRANSMIT then puts
the encoder at its entry point. -/
theorem Inv.after_writeBegin {len : Word} {data : List Byte} {r : Request} (he : s.ena = true) (hl : s.lock = false)
    (hr : pending s s.grant = some r) (hd : decodeRequest r = .ok (.write len data))
    (hv : validLength s len = true) : Inv (writeBegin len data s) := by
  have hlt : frameLen s < 2 ^ 32 := h.frameLen_lt he
  have hidle : s.ph = phIdle := h.ph_of_free hl
  have htx : (BitVec.ofNat 32 (frameLen s)).toNat = frameLen s := by
    simpa using Nat.mod_eq_of_lt hlt
  have hdata : data.length ≤ frameLen s := by
    have hlen : data.length = len.toNat := by simpa [Instr.wf] using (decodeRequest_command hd).2
    obtain ⟨hmod, hle⟩ := validLength_eq_true.1 hv
    simp only [frameLen, colorBytes]
    omega
  have hlocked : Inv { s with
      lock := true
      owner := s.grant
      fb := storeCandidate s len data
      strobe := noStrobe
      txlen := BitVec.ofNat 32 (frameLen s)
      byp := 0
      bitc := 7 } :=
    { h with
      strobeIdle := by simp [noStrobeStands]
      memWf := Memory.wf_zeroFill _ _ (Memory.wf_writeBytes _ _ h.memWf)
      memWithin := Memory.within_zeroFill _ _ (Memory.within_writeBytes _ _ (by rwa [Nat.zero_add]) h.memWithin)
      closedAtRest := by simp [he]
      busyHoldsLock := by simp
      holder := fun _ => ⟨⟨r, len, data, hr, hd, hv⟩, htx⟩
      bypInRange := by simp
      bypInFrame := by simp [hidle]
      clock := by simp [clockMatchesPhase, hidle, h.clk_of_idle hidle] }
  rw [writeBegin_eq len data s hlt]
  refine hlocked.of_positionTable rfl rfl ⟨by simp, Nat.two_pow_pos _, ?_⟩
  have hclk : s.clk = false := h.clk_of_idle hidle
  by_cases h0 : BitVec.ofNat 32 (frameLen s) = 0
  · simp [h0, hclk]
  · have hpos : 0 < (BitVec.ofNat 32 (frameLen s)).toNat :=
      Nat.pos_of_ne_zero fun e => h0 (BitVec.eq_of_toNat_eq e)
    simp only [h0, if_false]
    exact ⟨hpos, trivial, hclk⟩

/-- R26 (d): at the lock holder's port stands a valid WRITE, so a gate step there waits or ends the WRITE. -/
theorem Inv.eq_or_writeEnd_of_owner {i : Instr} {r : Request} {t : State} (hl : s.lock = true) (ho : s.owner = s.grant)
    (hr : pending s s.grant = some r) (hd : decodeRequest r = .ok i) (ht : exec i s = .next t) :
    t = s ∨ ∃ len, s.ph = phIdle ∧ t = writeEnd len s := by
  obtain ⟨⟨r', len, data, hr', hd', hv⟩, -⟩ := h.holder hl
  obtain rfl : r' = r := by simpa [ho, hr] using hr'.symm
  obtain rfl : i = .write len data := by simpa [hd] using hd'
  have hvalid : misaligned len = false ∧ tooLong s len = false := by simpa [validLength] using hv
  rcases (execWrite_next ht).2 with ⟨hm, _⟩ | ⟨_, hm, _⟩ | ⟨_, _, hret, rfl⟩ | ⟨_, _, _, rfl⟩ | ⟨_, hf, _⟩ | ⟨_, hf, _⟩
  · simp [hvalid] at hm
  · simp [hvalid] at hm
  · exact .inr ⟨len, (transmitReturned_eq_true.1 hret).2.1, rfl⟩
  · exact .inl rfl
  · simp [hl] at hf
  · simp [hl] at hf

/-- Every command the gate serves keeps the invariant. -/
theorem Inv.after_command {i : Instr} {r : Request} {t : State} (hr : pending s s.grant = some r)
    (hd : decodeRequest r = .ok i) (ht : exec i s = .next t) : Inv t := by
  by_cases howner : s.lock = true ∧ s.owner = s.grant
  · rcases h.eq_or_writeEnd_of_owner howner.1 howner.2 hr hd ht with rfl | ⟨len, hp, rfl⟩
    · exact h
    · exact h.after_writeEnd hp len
  · have hother : s.lock = true → s.owner ≠ s.grant := fun hl ho => howner ⟨hl, ho⟩
    have hanswer := h.after_respond hother
    exact command_outcome (P := Inv) (decodeRequest_command hd).1 ht
      (opened := fun n _ _ ha => (h.after_openRegisters (le_maxLeds_of_acquired ha)).after_respond (by simp) _ _ _)
      (openFailed := fun _ => hanswer _ _ _)
      (rangeError := fun _ => hanswer _ _ _)
      (sizeError := fun _ => hanswer _ _ _)
      (ended := fun l _ _ _ _ _ hp _ => h.after_writeEnd hp l)
      (begun := fun l d hi he hv hl => h.after_writeBegin he hl hr (hi ▸ hd) hv)
      (copyError := fun _ _ => hanswer _ _ _)
      (blocked := fun _ _ => h)
      (snapshot := fun _ hl => h.after_readSnapshot hl)
      (queried := fun _ => hanswer _ _ _)
      (closedAgain := fun _ => hanswer _ _ _)
      (closed := fun _ hl => (h.after_closeRegisters hl).after_respond (by simp [hl]) _ _ _)

end

/-! ### The ticks -/

/-- DLY's width admits both waits (log 18). -/
theorem max_ticks_lt (c : Config) : max c.holdTicks c.latchTicks < 2 ^ c.dlyW := Nat.lt_log2_self

theorem one_le_ticks_of_ok {c : Config} (h : c.ok = true) : 1 ≤ c.holdTicks ∧ 1 ≤ c.latchTicks := by
  simp only [Config.ok, Bool.and_eq_true, decide_eq_true_eq] at h
  tauto

theorem delayMinusOne_of_pos {s : State} (h : 1 ≤ s.dly) : delayMinusOne s = s.dly - 1 :=
  if_neg (by omega)

/-- After a bit that is not the byte's last, BITC is not back at 7. -/
theorem bitc_pred_ne_seven : ∀ b : BitVec 3, b ≠ 0 → b - 1 ≠ 7 := by decide

section
variable {s : State} (h : positionTable s)
include h

/-- R106: the end of a hold goes to the next bit, the next byte or the latch, with the clock high. -/
theorem positionTable_holdDone (hp : s.ph = phHold) (hd : delayMinusOne s = 0) :
    positionTable (holdDone s (countDelay s)) := by
  obtain ⟨hrange, -, hph⟩ := h
  simp only [hp, phHold] at hph
  obtain ⟨hbyp, hdly, hclk⟩ := hph
  have hto : (BitVec.ofNat 32 (s.byp.toNat + 1)).toNat = s.byp.toNat + 1 := by
    simp only [BitVec.toNat_ofNat]
    omega
  have hnext : nextByte (countDelay s) = BitVec.ofNat 32 (s.byp.toNat + 1) :=
    narrowWord_of_lt (by simp only [countDelay_byp]; omega)
  unfold holdDone
  by_cases hb : s.bitc = 0
  · rw [if_neg (by simpa using hb)]
    refine ⟨by simpa [hnext, hto] using hbyp, by simp [hd], ?_⟩
    by_cases hmore : s.byp.toNat + 1 < s.txlen.toNat
    · have hne : BitVec.ofNat 32 (s.byp.toNat + 1) ≠ 0 := fun e => by simp [e] at hto
      simpa [hmore, hnext, hto, hd, hclk] using hne
    · simp [hmore, hd, hclk, Nat.zero_lt_of_lt hbyp]
  · have hne : s.bitc - 1 ≠ 7 := bitc_pred_ne_seven s.bitc hb
    rw [if_pos hb]
    exact ⟨hrange, by simp [hd], by simpa [hbyp, hd, hclk] using .inr hne⟩

/-- R106. -/
theorem positionTable_hold {t : State} (hp : s.ph = phHold) (ht : execHold s = .next t) : positionTable t := by
  injection ht with ht
  subst ht
  by_cases hd : delayMinusOne s = 0
  · rw [if_pos hd]
    exact positionTable_holdDone h hp hd
  · rw [if_neg hd]
    obtain ⟨hrange, hfits, hph⟩ := h
    simp only [hp, phHold] at hph
    obtain ⟨hbyp, hdly, hclk⟩ := hph
    have hless : delayMinusOne s = s.dly - 1 := delayMinusOne_of_pos hdly
    exact ⟨hrange, hless.trans_lt ((Nat.sub_le _ _).trans_lt hfits), hbyp, Nat.pos_of_ne_zero hd, hclk⟩

/-- R108. -/
theorem positionTable_lwait {t : State} (hp : s.ph = phLwait) (ht : execLwait s = .next t) : positionTable t := by
  injection ht with ht
  subst ht
  obtain ⟨hrange, hfits, hph⟩ := h
  simp only [hp, phLwait] at hph
  obtain ⟨hdly, hclk⟩ := hph
  by_cases hd : delayMinusOne s = 0
  · rw [if_pos hd]
    exact ⟨hrange, by simp [hd], by simp [hd, hclk]⟩
  · rw [if_neg hd]
    have hless : delayMinusOne s = s.dly - 1 := delayMinusOne_of_pos hdly
    exact ⟨hrange, hless.trans_lt ((Nat.sub_le _ _).trans_lt hfits), Nat.pos_of_ne_zero hd, hclk⟩

/-- R103 to R108: every phase hands the position on as the table says. -/
theorem positionTable_tickStep {t : State} (hc : s.cfg.ok = true) (ht : tickStep s = .next t) :
    positionTable t := by
  have hcount : positionTable (countTick s) := h
  obtain ⟨hholdTicks, hlatchTicks⟩ := one_le_ticks_of_ok hc
  have hmax := max_ticks_lt s.cfg
  obtain ⟨hrange, hfits, hph⟩ := h
  rcases tickStep_next ht with ⟨_, rfl⟩ | ⟨hp, ht⟩ | ⟨hp, ht⟩ | ⟨hp, ht⟩ | ⟨hp, ht⟩ | ⟨hp, ht⟩ | ⟨hp, ht⟩
  · exact hcount
  · injection ht with ht
    subst ht
    simp only [hp, phClklo] at hph
    exact ⟨hrange, hfits, hph.1, hph.2.1, rfl⟩
  · obtain ⟨b, -, rfl⟩ := execDset_next ht
    simp only [hp, phDset] at hph
    exact ⟨hrange, hfits, hph⟩
  · injection ht with ht
    subst ht
    simp only [hp, phClkhi] at hph
    exact ⟨hrange, (le_max_left _ _).trans_lt hmax, hph.1, hholdTicks, rfl⟩
  · exact positionTable_hold hcount hp ht
  · injection ht with ht
    subst ht
    exact ⟨hrange, (le_max_right _ _).trans_lt hmax, hlatchTicks, rfl⟩
  · exact positionTable_lwait hcount hp ht

end

/-- R102: in IDLE a tick only counts. -/
theorem tickStep_of_idle {s : State} (hp : s.ph = phIdle) : tickStep s = .next (countTick s) := by
  simp [tickStep, hp, decodePhase, exec, execIdle]

/-- R100: a tick keeps the invariant: in IDLE it only counts, elsewhere the lock is held. -/
theorem Inv.after_tickStep {s t : State} (h : Inv s) (ht : tickStep s = .next t) : Inv t := by
  by_cases hp : s.ph = phIdle
  · obtain rfl : countTick s = t := by simpa [tickStep_of_idle hp] using ht
    exact { h with }
  · have hframe := (tickStep_frame ht).1
    have htime : t.t = s.t + 1 := by rw [hframe]
    exact h.of_positionTable (h.busyHoldsLock hp) (by rw [htime]; exact hframe)
      (positionTable_tickStep h.position h.cfgOk ht)

/-- Settles O55, by the kinds of step: no strobe stands, and each other kind has its own lemma above. -/
theorem stepKeepsTheInvariant : Obligations.StepKeepsTheInvariant := by
  unfold Obligations.StepKeepsTheInvariant
  intro s t h ht
  rcases (step_cases ht).2 with ⟨hs, _⟩ | ⟨_, _, ht⟩ | ⟨_, p, r, ms, _, rfl⟩ | ⟨_, p, x, y, ms, _, _, rfl⟩ |
    ⟨_, p, x, y, ms, r, i, _, hr, hd, _, ht⟩
  · simp [h.strobeStart_eq_false] at hs
  · exact (h.after_moves _).after_tickStep ht
  · exact (h.after_moves ms).after_submit p r
  · exact h.after_moves ms
  · exact ((h.after_moves ms).after_selectPort p x y).after_command hr hd ht

/-! ### PH, NLED, ENA, time and the log under a command -/

/-- What a command can do (R12, R28, R29, R33, R35): it leaves the parameters, T and OPLOG; and it leaves PH and NLED,
or is a write-begin with the lock free, or opens or closes the device and leaves PH or returns it to IDLE. -/
def commandEffect (s t : State) : Prop :=
  t.cfg = s.cfg ∧ t.t = s.t ∧ t.oplog = s.oplog ∧
    ((t.ph = s.ph ∧ t.nled = s.nled) ∨
     (s.lock = false ∧ ∃ len data, t = writeBegin len data s) ∨
     (t.ena ≠ s.ena ∧ (t.ph = s.ph ∨ t.ph = phIdle)))

theorem commandEffect_respond (s : State) (st : Status) (v : Word) (d : List Byte) :
    commandEffect s (respond s st v d) := ⟨rfl, rfl, rfl, .inl ⟨rfl, rfl⟩⟩

theorem commandEffect_writeBegin {s : State} (hl : s.lock = false) (len : Word) (data : List Byte) :
    commandEffect s (writeBegin len data s) :=
  ⟨writeBegin_cfg len data s, writeBegin_t len data s, writeBegin_oplog len data s, .inr (.inl ⟨hl, len, data, rfl⟩)⟩

theorem commandEffect_of_exec {i : Instr} {s t : State} (hi : i.isCommand = true) (ht : exec i s = .next t) :
    commandEffect s t :=
  command_outcome (P := commandEffect s) hi ht
    (opened := fun _ _ he _ => ⟨rfl, rfl, rfl, .inr (.inr ⟨by simp [he], .inr rfl⟩)⟩)
    (openFailed := fun _ => commandEffect_respond s _ _ _)
    (rangeError := fun _ => commandEffect_respond s _ _ _)
    (sizeError := fun _ => commandEffect_respond s _ _ _)
    (ended := fun _ _ _ _ _ _ _ _ => ⟨rfl, rfl, rfl, .inl ⟨rfl, rfl⟩⟩)
    (begun := fun len data _ _ _ hl => commandEffect_writeBegin hl len data)
    (copyError := fun _ _ => commandEffect_respond s _ _ _)
    (blocked := fun _ _ => ⟨rfl, rfl, rfl, .inl ⟨rfl, rfl⟩⟩)
    (snapshot := fun _ _ => ⟨rfl, rfl, rfl, .inl ⟨rfl, rfl⟩⟩)
    (queried := fun _ => commandEffect_respond s _ _ _)
    (closedAgain := fun _ => commandEffect_respond s _ _ _)
    (closed := fun he _ => ⟨rfl, rfl, rfl, .inr (.inr ⟨by simp [he], .inl rfl⟩)⟩)

/-! ### The claims about every step -/

/-- Settles O19: a tick in IDLE only counts, and of the commands only a write-begin leaves IDLE. -/
theorem encoderLeavesIdleOnlyByTransmit : Obligations.EncoderLeavesIdleOnlyByTransmit := by
  unfold Obligations.EncoderLeavesIdleOnlyByTransmit
  intro s t hp ht hbusy
  rcases (step_cases ht).2 with ⟨hs, rfl⟩ | ⟨_, _, ht⟩ | ⟨_, p, r, ms, _, rfl⟩ | ⟨_, p, x, y, ms, _, _, rfl⟩ |
    ⟨_, p, x, y, ms, r, i, _, _, _, hi, ht⟩
  · exact ⟨.inl hs, rfl, rfl, rfl, rfl⟩
  · rw [tickStep_of_idle (s := { s with moves := s.moves.tail }) hp] at ht
    injection ht with ht
    exact absurd (ht ▸ hp) hbusy
  · rw [submit_frame] at hbusy
    exact absurd hp hbusy
  · exact absurd hp hbusy
  · obtain ⟨-, -, -, ⟨hph, -⟩ | ⟨hl, len, data, rfl⟩ | ⟨-, hph | hph⟩⟩ := commandEffect_of_exec hi ht
    · exact absurd (hph.trans hp) hbusy
    · exact ⟨.inr ⟨hl, by simp⟩, by simp, by simp, by simp, by simp⟩
    · exact absurd (hph.trans hp) hbusy
    · exact absurd hph hbusy

/-- Settles O39: outside the commands no step writes NLED at all. -/
theorem ledCountIsFixedWhileOpen : Obligations.LedCountIsFixedWhileOpen := by
  unfold Obligations.LedCountIsFixedWhileOpen
  intro s t ht hs hena
  have hnled : t.nled = s.nled := by
    rcases (step_cases ht).2 with ⟨_, rfl⟩ | ⟨_, _, ht⟩ | ⟨_, p, r, ms, _, rfl⟩ | ⟨_, p, x, y, ms, _, _, rfl⟩ |
      ⟨_, p, x, y, ms, r, i, _, _, _, hi, ht⟩
    · rfl
    · rw [(tickStep_frame ht).1]
    · rw [submit_frame]
    · rfl
    · obtain ⟨-, -, -, ⟨-, hnled⟩ | ⟨-, len, data, rfl⟩ | ⟨hchanged, -⟩⟩ := commandEffect_of_exec hi ht
      · exact hnled
      · simp
      · exact absurd (hena.trans hs.symm) hchanged
  exact ⟨hnled, by rw [frameLen, frameLen, hnled]⟩

/-- Settles O47: a tick counts one and appends; every other step leaves the parameters, T and OPLOG. -/
theorem onlyTicksMoveTimeAndTheLog : Obligations.OnlyTicksMoveTimeAndTheLog := by
  unfold Obligations.OnlyTicksMoveTimeAndTheLog
  intro s t ht
  have hquiet : ¬(noStrobeStands s = true ∧ ticksNext s = true) → t.cfg = s.cfg ∧ t.t = s.t ∧ t.oplog = s.oplog →
      t.cfg = s.cfg ∧ t.t = s.t + (if noStrobeStands s = true ∧ ticksNext s = true then 1 else 0)
        ∧ (∃ es, t.oplog = s.oplog ++ es) ∧ (t.t = s.t → t.oplog = s.oplog) := by
    rintro hno ⟨hcfg, htime, hlog⟩
    exact ⟨hcfg, by rw [if_neg hno, htime, Nat.add_zero], ⟨[], by simp [hlog]⟩, fun _ => hlog⟩
  rcases (step_cases ht).2 with ⟨hs, rfl⟩ | ⟨hs, hm, ht⟩ | ⟨_, p, r, ms, hm, rfl⟩ | ⟨_, p, x, y, ms, hm, _, rfl⟩ |
    ⟨_, p, x, y, ms, r, i, hm, _, _, hi, ht⟩
  · exact hquiet (by simp [noStrobeStands, hs]) ⟨rfl, rfl, rfl⟩
  · obtain ⟨hframe, hlog⟩ := tickStep_frame ht
    have htick : noStrobeStands s = true ∧ ticksNext s = true :=
      ⟨by simp [noStrobeStands, hs], by rcases hm with hm | hm <;> rw [ticksNext, hm] <;> rfl⟩
    have htime : t.t = s.t + 1 := by rw [hframe]
    exact ⟨by rw [hframe], by rw [if_pos htick, htime], hlog, fun he => by omega⟩
  · exact hquiet (by simp [ticksNext, hm]) (by rw [submit_frame]; exact ⟨rfl, rfl, rfl⟩)
  · exact hquiet (by simp [ticksNext, hm]) ⟨rfl, rfl, rfl⟩
  · obtain ⟨hcfg, htime, hlog, -⟩ := commandEffect_of_exec hi ht
    exact hquiet (by simp [ticksNext, hm]) ⟨hcfg, htime, hlog⟩

/-! ### Faults -/

/-- R50: DSET alone faults, and only outside the frame. -/
theorem exec_fault {i : Instr} {s : State} {f : Fault} (h : exec i s = .fault f) :
    i = .dset ∧ frameLen s ≤ s.byp.toNat := by
  cases i with
  | dset =>
    refine ⟨rfl, ?_⟩
    by_contra hlt
    simp [exec, execDset, currentBit, frameByte, Nat.lt_of_not_le hlt] at h
  | openDev n =>
    simp only [exec, execOpen] at h
    split_ifs at h
  | write len data =>
    simp only [exec, execWrite] at h
    split_ifs at h
  | read =>
    simp only [exec, execRead] at h
    split_ifs at h
  | query =>
    simp only [exec, execQuery] at h
    split_ifs at h
  | close =>
    simp only [exec, execClose] at h
    split_ifs at h
  | transmit _ => cases h
  | idle => cases h
  | clklo => cases h
  | clkhi => cases h
  | hold => cases h
  | latch => cases h
  | lwait => cases h

theorem tickStep_fault {s : State} {f : Fault} (h : tickStep s = .fault f) :
    s.ph = phDset ∧ frameLen s ≤ s.byp.toNat := by
  unfold tickStep at h
  split at h
  case h_1 i hd =>
    obtain ⟨rfl, hbyp⟩ := exec_fault h
    refine ⟨?_, hbyp⟩
    rcases phase_cases s.ph with hp | hp | hp | hp | hp | hp | hp | hp <;> simp_all [decodePhase]
  case h_2 => cases h

/-- A gate step runs a command, and no command faults. -/
theorem gateStep_ne_fault (p : Port) (x y : Bool) (s : State) (f : Fault) : gateStep p x y s ≠ .fault f := by
  intro h
  unfold gateStep at h
  split at h
  case h_1 => cases h
  case h_2 i hf =>
    obtain ⟨rfl, -⟩ := exec_fault h
    obtain ⟨r, -, hd⟩ := Option.map_eq_some_iff.1 hf
    simpa [Instr.isCommand] using (decodeRequest_command hd).1
  case h_3 => cases h

/-- A step that faults is a tick in DSET with BYP outside the frame. -/
theorem step_fault {s : State} {f : Fault} (h : step s = .fault f) :
    s.ph = phDset ∧ frameLen s ≤ s.byp.toNat := by
  unfold step at h
  split at h
  · cases h
  · split at h
    · obtain ⟨-, rfl⟩ := decodeStrobe_eq_ok ‹_›
      cases h
    · split at h
      · exact tickStep_fault h
      · rename_i m ms _
        cases m with
        | tick => exact tickStep_fault (s := { s with moves := ms }) h
        | submit p r => cases h
        | gate p x y => exact absurd h (gateStep_ne_fault p x y _ f)

/-- Settles O56: in DSET the invariant keeps BYP inside the frame. -/
theorem invariantStatesNeverFault : Obligations.InvariantStatesNeverFault := by
  unfold Obligations.InvariantStatesNeverFault
  intro s f h hf
  obtain ⟨hp, hbyp⟩ := step_fault hf
  exact absurd (h.byp_lt_frameLen (.inr (.inl hp))) (Nat.not_lt.2 hbyp)

/-! ### Moves that are not enabled, power-on -/

/-- Where nothing is refused and no strobe stands, a step is the environment's next move (R58). -/
theorem step_of_move {s : State} {m : Move} {ms : List Move} (ha : answerable s) (hs : noStrobeStands s = true)
    (hm : s.moves = m :: ms) : step s = moveStep m { s with moves := ms } := by
  have hno : strobeStart s.strobe = false := by simpa [noStrobeStands] using hs
  unfold answerable at ha
  simp [step, ha, decodeStrobe, hno, hm]

/-- Settles O46: a busy port takes no submit, and a gate move at a free port fetches nothing. -/
theorem movesNotEnabledChangeNothing : Obligations.MovesNotEnabledChangeNothing := by
  unfold Obligations.MovesNotEnabledChangeNothing
  intro s p ms ha hs
  refine ⟨fun r r' hm hp => ?_, fun x y hm hp => ?_⟩
  · rw [step_of_move ha hs hm, moveStep, submit_of_busy (s := { s with moves := ms }) hp]
  · have hfetch : fetchCommand { s with moves := ms } p = none := Option.map_eq_none_iff.2 hp
    rw [step_of_move ha hs hm, moveStep, gateStep, hfetch]

theorem inv_powerOn {c : Config} (hc : c.ok = true) : Inv (State.powerOn c) where
  cfgOk := hc
  strobeIdle := by simp [noStrobeStands, strobeStart, State.powerOn]
  pendSorted := rfl
  memWf := rfl
  memWithin := rfl
  nledFits := fun _ => Nat.zero_le _
  oeIsEna := rfl
  closedAtRest := fun _ => ⟨rfl, rfl⟩
  busyHoldsLock := fun hp => absurd rfl hp
  holder := by simp [State.powerOn]
  bypInRange := Nat.le_refl _
  bypInFrame := by simp [State.powerOn]
  dlyAtRest := fun _ _ => rfl
  dlyCounting := by simp [State.powerOn]
  dlyFits := Nat.two_pow_pos _
  phaseLegal := by simp [State.powerOn]
  clock := by simp [clockMatchesPhase, State.powerOn]

/-- Settles O54: reset is power-on with the reference parameters. -/
theorem powerOnMeetsTheInvariant : Obligations.PowerOnMeetsTheInvariant := by
  unfold Obligations.PowerOnMeetsTheInvariant
  exact ⟨fun c hc => inv_powerOn hc, inv_powerOn (by decide)⟩

end Sys2Proof.Safety
end

section
/-! SUPPORT and PROOF. The frame memory and the lock that guards it (spec/20_memory.md): who waits while the lock is
held, what a step then leaves alone, and that a waiting port can be served once the lock is free. -/

namespace Sys2Proof.Safety

open Sys2Proof.Machine

/-! ### Bytes outside the frame -/

/-- R50: there is no bit to send outside the frame. -/
theorem currentBit_of_outside {s : State} (h : frameLen s ≤ s.byp.toNat) : currentBit s = none := by
  simp [currentBit, frameByte, Nat.not_lt.2 h]

/-- Settles O12: with BYP outside the frame DSET finds no bit. -/
theorem dsetOutsideTheFrameFaults : Obligations.DsetOutsideTheFrameFaults := by
  unfold Obligations.DsetOutsideTheFrameFaults
  intro s h
  simp [exec, execDset, currentBit_of_outside h]

/-! ### Waiting for the lock -/

/-- R54: a WRITE of a valid length waits while the lock is held, unless its own transmit has returned. -/
theorem execWrite_of_waiting {len : Word} {data : List Byte} {s : State} (he : s.ena = true) (hl : s.lock = true)
    (hv : validLength s len = true) (hret : transmitReturned s = false) : execWrite len data s = .next s := by
  have hvalid : misaligned len = false ∧ tooLong s len = false := by simpa [validLength] using hv
  simp [execWrite, he, hl, hvalid, hret, stayBlocked]

/-- Settles O32: each of the three tests the lock and stays blocked. -/
theorem blockedCommandsWait : Obligations.BlockedCommandsWait := by
  unfold Obligations.BlockedCommandsWait
  intro s he hl
  refine ⟨by simp [exec, execRead, he, hl, stayBlocked], by simp [exec, execClose, he, hl, stayBlocked], ?_⟩
  intro len data hmod hle hwait
  have hret : transmitReturned s = false := by
    rw [Bool.eq_false_iff, ne_eq, transmitReturned_eq_true]
    rintro ⟨-, hp, ho⟩
    exact hwait.elim (absurd hp) (absurd ho)
  exact execWrite_of_waiting he hl (validLength_eq_true.2 ⟨hmod, hle⟩) hret

/-! ### Submits -/

/-- Settles O45: at a free port the submit is one `kvPut` into PEND. -/
theorem submitFillsAFreePort : Obligations.SubmitFillsAFreePort := by
  unfold Obligations.SubmitFillsAFreePort
  intro s p r ms ha hs hm hfree
  have hput := fun q => pending_submit p q r { s with moves := ms } hfree
  refine ⟨_, step_of_move ha hs hm, submit_frame p r _, ?_, fun q hq => ?_⟩
  · rw [hput, if_pos rfl]
  · rw [hput, if_neg hq]
    rfl

/-! ### While the lock is held -/

/-- What a step leaves alone while the lock is held, and the one way it can release it (R53, R59, R142). -/
def lockedEffect (s t : State) : Prop :=
  t.fb = s.fb ∧ t.nled = s.nled ∧ t.ena = s.ena ∧ t.owner = s.owner ∧ t.txlen = s.txlen
    ∧ (s.ph = phIdle → t.ph = phIdle)
    ∧ (t.lock = false → s.ph = phIdle
        ∧ ∃ len, t.answers = s.answers ++ [(s.owner, { st := .ok, value := len, data := [] })])

section
variable {s : State} (hl : s.lock = true)
include hl

theorem lockedEffect_self : lockedEffect s s :=
  ⟨rfl, rfl, rfl, rfl, rfl, id, fun hf => by simp [hl] at hf⟩

theorem lockedEffect_respond (st : Status) (v : Word) (d : List Byte) : lockedEffect s (respond s st v d) :=
  ⟨rfl, rfl, rfl, rfl, rfl, id, fun hf => by simp [hl] at hf⟩

/-- R102, R111: a tick writes only the pins and the sequencer's position, and in IDLE only counts. -/
theorem lockedEffect_tickStep {t : State} (ht : tickStep s = .next t) : lockedEffect s t := by
  have hidle : s.ph = phIdle → t.ph = phIdle := fun hp => by
    obtain rfl : countTick s = t := by simpa [tickStep_of_idle hp] using ht
    exact hp
  rw [(tickStep_frame ht).1]
  exact ⟨rfl, rfl, rfl, rfl, rfl, hidle, fun hf => by simp [hl] at hf⟩

/-- R54, R59, R136: on an open device whose lock is held a command answers without a register write, waits, or is the
holder's write-end. -/
theorem lockedEffect_of_exec {i : Instr} {t : State} (he : s.ena = true) (hi : i.isCommand = true)
    (ht : exec i s = .next t) : lockedEffect s t := by
  have hopen : s.ena ≠ false := by simp [he]
  have hheld : s.lock ≠ false := by simp [hl]
  exact command_outcome (P := lockedEffect s) hi ht
    (opened := fun _ _ hf _ => absurd hf hopen)
    (openFailed := fun hf => absurd hf hopen)
    (rangeError := fun _ => lockedEffect_respond hl _ _ _)
    (sizeError := fun _ => lockedEffect_respond hl _ _ _)
    (ended := fun len _ _ _ _ _ hp ho => ⟨rfl, rfl, rfl, rfl, rfl, id, fun _ => ⟨hp, len, by rw [ho]; rfl⟩⟩)
    (begun := fun _ _ _ _ _ hf => absurd hf hheld)
    (copyError := fun _ hf => absurd hf hheld)
    (blocked := fun _ _ => lockedEffect_self hl)
    (snapshot := fun _ hf => absurd hf hheld)
    (queried := fun _ => lockedEffect_respond hl _ _ _)
    (closedAgain := fun hf => absurd hf hopen)
    (closed := fun _ hf => absurd hf hheld)

end

/-- Settles O35, by the kinds of step: the move taken and the gate's choice are fields that `lockedEffect` does not
read, so each kind's lemma speaks of the state before the step. -/
theorem lockedFrameIsLeftAlone : Obligations.LockedFrameIsLeftAlone := by
  unfold Obligations.LockedFrameIsLeftAlone
  intro s t h hl ht
  rcases (step_cases ht).2 with ⟨hs, _⟩ | ⟨_, _, ht⟩ | ⟨_, p, r, ms, _, rfl⟩ | ⟨_, p, x, y, ms, _, _, rfl⟩ |
    ⟨_, p, x, y, ms, r, i, _, _, _, hi, ht⟩
  · simp [h.strobeStart_eq_false] at hs
  · exact lockedEffect_tickStep (s := { s with moves := s.moves.tail }) hl ht
  · rw [submit_frame]
    exact lockedEffect_self hl
  · exact lockedEffect_self hl
  · exact lockedEffect_of_exec (s := selectPort { s with moves := ms } p x y) hl (h.ena_of_lock hl) hi ht

/-! ### When the lock is free -/

/-- R168, R175: an instruction refuses only where `commandRefusal` says so. -/
theorem exec_refused {i : Instr} {s : State} {why : Refusal} (h : exec i s = .refused why) :
    commandRefusal s.ena i = some why := by
  cases i with
  | openDev n =>
    simp only [exec, execOpen] at h
    split_ifs at h with he
    simpa [commandRefusal, he] using h
  | write len data =>
    simp only [exec, execWrite, Bool.not_eq_true'] at h
    split_ifs at h with he
    simpa [commandRefusal, he] using h
  | read =>
    simp only [exec, execRead, Bool.not_eq_true'] at h
    split_ifs at h with he
    simpa [commandRefusal, he] using h
  | query =>
    simp only [exec, execQuery, Bool.not_eq_true'] at h
    split_ifs at h with he
    simpa [commandRefusal, he] using h
  | close =>
    simp only [exec, execClose] at h
    split_ifs at h
  | dset =>
    simp only [exec, execDset] at h
    split at h <;> cases h
  | transmit _ => cases h
  | idle => cases h
  | clklo => cases h
  | clkhi => cases h
  | hold => cases h
  | latch => cases h
  | lwait => cases h

/-- A command that has a meaning answers with a next state. -/
theorem exec_command_answers {i : Instr} {s : State} (hi : i.isCommand = true)
    (hm : commandRefusal s.ena i = none) : ∃ t, exec i s = .next t := by
  cases h : exec i s with
  | next t => exact ⟨t, rfl⟩
  | fault f =>
    obtain ⟨rfl, -⟩ := exec_fault h
    simp [Instr.isCommand] at hi
  | refused why => simp [exec_refused h] at hm

/-- R76, R168, R175: in a state that is not refused every pending request is a command with a meaning. -/
theorem decodeRequest_of_answerable {s : State} {p : Port} {r : Request} (ha : answerable s)
    (hr : pending s p = some r) : ∃ i, decodeRequest r = .ok i ∧ commandRefusal s.ena i = none := by
  have hmeaning : requestRefusal s.ena r = none := List.findSome?_eq_none_iff.1 ha _ (kvGet_eq_some_mem hr)
  unfold requestRefusal at hmeaning
  split at hmeaning
  · cases hmeaning
  · exact ⟨_, ‹_›, hmeaning⟩

/-- A gate move runs the command pending at its port (R58). -/
theorem gateStep_of_pending {s : State} {p : Port} {r : Request} {i : Instr} (x y : Bool)
    (hr : pending s p = some r) (hd : decodeRequest r = .ok i) :
    gateStep p x y s = exec i (selectPort s p x y) := by
  simp [gateStep, fetchCommand, hr, hd]

/-- Port `p` has its answer, or holds the lock (R56). -/
def served (p : Port) (t : State) : Prop := pending t p = none ∨ (t.lock = true ∧ t.owner = p)

theorem served_respond (s : State) (st : Status) (v : Word) (d : List Byte) : served s.grant (respond s st v d) :=
  .inl (by simp)

/-- R130, R150, R165, R169: with the lock free a command answers its port or takes the lock for it. -/
theorem served_of_free {i : Instr} {s t : State} (hl : s.lock = false) (hi : i.isCommand = true)
    (ht : exec i s = .next t) : served s.grant t := by
  have hfree : s.lock ≠ true := by simp [hl]
  exact command_outcome (P := served s.grant) hi ht
    (opened := fun n _ _ _ => served_respond (openRegisters (openCount n) s) _ _ _)
    (openFailed := fun _ => served_respond s _ _ _)
    (rangeError := fun _ => served_respond s _ _ _)
    (sizeError := fun _ => served_respond s _ _ _)
    (ended := fun _ _ _ _ _ hheld _ _ => absurd hheld hfree)
    (begun := fun len data _ _ _ _ => .inr ⟨writeBegin_lock len data s, writeBegin_owner len data s⟩)
    (copyError := fun _ _ => served_respond s _ _ _)
    (blocked := fun _ hheld => absurd hheld hfree)
    (snapshot := fun _ _ => served_respond { s with draws := narrowDraws s (frameLen s) } _ _ _)
    (queried := fun _ => served_respond s _ _ _)
    (closedAgain := fun _ => served_respond s _ _ _)
    (closed := fun _ _ => served_respond (closeRegisters s) _ _ _)

/-- Settles O51: the move is the gate's at that port; whatever its draws, the command there has a meaning and finds
the lock free. -/
theorem anyWaitingPortMayBeNext : Obligations.AnyWaitingPortMayBeNext := by
  unfold Obligations.AnyWaitingPortMayBeNext
  intro s p r h ha hl hr
  obtain ⟨i, hd, hmeaning⟩ := decodeRequest_of_answerable ha hr
  have hi : i.isCommand = true := (decodeRequest_command hd).1
  obtain ⟨t, ht⟩ := exec_command_answers (s := selectPort s p true true) hi hmeaning
  have hstep : step { s with moves := .gate p true true :: s.moves } = .next t := by
    rw [step_of_move (s := { s with moves := .gate p true true :: s.moves }) ha h.strobeIdle rfl, moveStep]
    exact (gateStep_of_pending true true hr hd).trans ht
  exact ⟨.gate p true true, t, hstep, served_of_free (s := selectPort s p true true) hl hi ht⟩

end Sys2Proof.Safety
end

section
/-! SUPPORT and PROOF. The words and the requests they carry (spec/30_encoding.md): decoding by the header's fields,
encoding and decoding against each other, the requests without a meaning, and the answer a request gets. -/

namespace Sys2Proof

/-! ### Decoding by the fields of a word -/

/-- R71, R73: OPEN takes its LED count from `arg` where `has_cfg` is set, and ignores `arg` elsewhere. -/
theorem decodeRequest_openDev (arg : Word) (c : Bool) :
    decodeRequest { hdr := mkHeader arg c 0, data := [] } = .ok (.openDev (if c then some arg else none)) := by
  simp [decodeRequest, decodeBare]

/-- R71, R72: WRITE ignores `has_cfg`. -/
theorem decodeRequest_write (arg : Word) (c : Bool) {data : List Byte} (hl : data.length = arg.toNat) :
    decodeRequest { hdr := mkHeader arg c 1, data := data } = .ok (.write arg data) := by
  simp [decodeRequest, hl]

theorem decodeRequest_read (arg : Word) (c : Bool) :
    decodeRequest { hdr := mkHeader arg c 2, data := [] } = .ok .read := by
  simp [decodeRequest, decodeBare]

theorem decodeRequest_query (arg : Word) (c : Bool) :
    decodeRequest { hdr := mkHeader arg c 3, data := [] } = .ok .query := by
  simp [decodeRequest, decodeBare]

theorem decodeRequest_close (arg : Word) (c : Bool) :
    decodeRequest { hdr := mkHeader arg c 4, data := [] } = .ok .close := by
  simp [decodeRequest, decodeBare]

/-- R75, R76: opcodes 5, 6 and 7 select no command, whatever the payload. -/
theorem decodeRequest_reserved (arg : Word) (c : Bool) {op : BitVec 3} (data : List Byte)
    (hop : op = 5 ∨ op = 6 ∨ op = 7) :
    decodeRequest { hdr := mkHeader arg c op, data := data } = .error (.reservedOpcode op) := by
  rcases hop with rfl | rfl | rfl <;> simp [decodeRequest]

/-- R82: the strobe of `n` bytes means TRANSMIT(n). -/
theorem decodeStrobe_mkStrobe (n : Word) : decodeStrobe (mkStrobe n) = .ok (.transmit n) := by
  simp [decodeStrobe]

/-- R82: a word with `tx_start = 1` is the strobe of its `tx_len`. -/
theorem mkStrobe_strobeLen {w : StrobeWord} (h : strobeStart w = true) : mkStrobe (strobeLen w) = w := by
  have hodd : w.toNat % 2 = 1 := by simpa [strobeStart_eq] using h
  apply BitVec.eq_of_toNat_eq
  rw [mkStrobe_toNat, strobeLen_toNat]
  omega

theorem decodeBare_eq_error {i : Instr} {d : List Byte} {e : Reject} (h : decodeBare i d = .error e) :
    e = .payloadLength := by
  cases d with
  | nil => cases h
  | cons a t => exact (Except.error.inj h).symm

/-- Why a request record decodes to no command (R72, R76). -/
theorem decodeRequest_error {r : Request} {e : Reject} (h : decodeRequest r = .error e) :
    e = .payloadLength ∨ e = .reservedOpcode (headerOp r.hdr) := by
  unfold decodeRequest at h
  split at h
  · exact .inl (decodeBare_eq_error h)
  · split_ifs at h
    exact .inl (by simpa using h.symm)
  · exact .inl (decodeBare_eq_error h)
  · exact .inl (decodeBare_eq_error h)
  · exact .inl (decodeBare_eq_error h)
  · exact .inr (by simpa using h.symm)

/-! ### Decoding what was encoded, and the words of the spec -/

/-- Settles O1: each field is read back from the word it was put in. -/
theorem decodeOfEncodeIsTheInstruction : Obligations.DecodeOfEncodeIsTheInstruction := by
  unfold Obligations.DecodeOfEncodeIsTheInstruction
  intro i hwf
  cases i with
  | openDev n =>
    cases n with
    | none => exact decodeRequest_openDev 0 false
    | some n => exact decodeRequest_openDev n true
  | write len data => exact decodeRequest_write len false (by simpa [Instr.wf] using hwf)
  | read => exact decodeRequest_read 0 false
  | query => exact decodeRequest_query 0 false
  | close => exact decodeRequest_close 0 false
  | transmit n => exact decodeStrobe_mkStrobe n
  | idle => rfl
  | clklo => rfl
  | dset => rfl
  | clkhi => rfl
  | hold => rfl
  | latch => rfl
  | lwait => rfl

/-- Settles O3: the header written out is `mkHeader`, which each field is read back from. -/
theorem headerFieldsSelectTheCommand : Obligations.HeaderFieldsSelectTheCommand := by
  unfold Obligations.HeaderFieldsSelectTheCommand
  intro arg c op data
  refine ⟨?_, ?_, ?_, ?_, ?_, ?_⟩
  · rintro rfl rfl
    exact decodeRequest_openDev arg c
  · rintro rfl hl
    exact decodeRequest_write arg c hl
  · rintro rfl rfl
    exact decodeRequest_read arg c
  · rintro rfl rfl
    exact decodeRequest_query arg c
  · rintro rfl rfl
    exact decodeRequest_close arg c
  · exact decodeRequest_reserved arg c data

/-- Settles O4: the headers of the vectors are `mkHeader` of their fields, the strobe is `mkStrobe 3`. -/
theorem wordsOfTheSpecDecode : Obligations.WordsOfTheSpecDecode := by
  unfold Obligations.WordsOfTheSpecDecode
  exact ⟨decodeRequest_openDev 3 true, decodeRequest_openDev 77 false, decodeRequest_write (data := [1, 2, 3]) 3 false rfl,
    decodeRequest_read 0 false, decodeRequest_query 0 false, decodeRequest_close 0 false, decodeStrobe_mkStrobe 3, rfl⟩

/-! ### A word that decodes -/

/-- R71: `r'` is `r` but for the header fields that the command of `r` ignores. -/
def agreesOnUsedFields (r r' : Request) : Prop :=
  headerOp r'.hdr = headerOp r.hdr ∧ r'.data = r.data
    ∧ (headerOp r.hdr = 0 → headerHasCfg r'.hdr = headerHasCfg r.hdr
        ∧ (headerHasCfg r.hdr = true → headerArg r'.hdr = headerArg r.hdr))
    ∧ (headerOp r.hdr = 1 → headerArg r'.hdr = headerArg r.hdr)

section
variable {r : Request}

theorem agreesOnUsedFields_encodeOpen (hop : headerOp r.hdr = 0) (hd : r.data = []) :
    agreesOnUsedFields r (encodeOpen (if headerHasCfg r.hdr then some (headerArg r.hdr) else none)) := by
  cases hc : headerHasCfg r.hdr <;> simp [agreesOnUsedFields, encodeOpen, hop, hd, hc]

theorem agreesOnUsedFields_write (hop : headerOp r.hdr = 1) :
    agreesOnUsedFields r { hdr := mkHeader (headerArg r.hdr) false 1, data := r.data } := by
  simp [agreesOnUsedFields, hop]

/-- R74: an opcode other than 0 and 1 uses no further field. -/
theorem agreesOnUsedFields_encodeBare {op : BitVec 3} (hop : headerOp r.hdr = op) (h0 : op ≠ 0) (h1 : op ≠ 1)
    (hd : r.data = []) : agreesOnUsedFields r (encodeBare op) :=
  ⟨by simp [encodeBare, hop], hd.symm, fun h => absurd (hop.symm.trans h) h0, fun h => absurd (hop.symm.trans h) h1⟩

/-- R71: a record that decodes agrees with its command's own record. -/
theorem encode_of_decodeRequest {i : Instr} (h : decodeRequest r = .ok i) :
    ∃ r', encode i = .request r' ∧ agreesOnUsedFields r r' := by
  rcases decodeRequest_eq_ok h with ⟨hop, hd, rfl⟩ | ⟨hop, rfl, _⟩ | ⟨hop, hd, rfl⟩ | ⟨hop, hd, rfl⟩ | ⟨hop, hd, rfl⟩
  · exact ⟨_, rfl, agreesOnUsedFields_encodeOpen (BitVec.eq_of_toNat_eq hop) hd⟩
  · exact ⟨_, rfl, agreesOnUsedFields_write (BitVec.eq_of_toNat_eq hop)⟩
  · exact ⟨_, rfl, agreesOnUsedFields_encodeBare (BitVec.eq_of_toNat_eq hop) (by decide) (by decide) hd⟩
  · exact ⟨_, rfl, agreesOnUsedFields_encodeBare (BitVec.eq_of_toNat_eq hop) (by decide) (by decide) hd⟩
  · exact ⟨_, rfl, agreesOnUsedFields_encodeBare (BitVec.eq_of_toNat_eq hop) (by decide) (by decide) hd⟩

end

/-- R82: a strobe that decodes is the word of its TRANSMIT. -/
theorem encode_of_decodeStrobe {w : StrobeWord} {i : Instr} (h : decodeStrobe w = .ok i) : encode i = .strobe w := by
  obtain ⟨hs, rfl⟩ := decodeStrobe_eq_ok h
  exact congrArg Words.strobe (mkStrobe_strobeLen hs)

/-- R80: a value of PH that decodes is the word of its phase. -/
theorem encode_of_decodePhase {w : Phase} {i : Instr} (h : decodePhase w = .ok i) : encode i = .phase w := by
  rcases phase_cases w with rfl | rfl | rfl | rfl | rfl | rfl | rfl | rfl <;> cases h <;> rfl

/-- Settles O2, channel by channel. -/
theorem eachWordHasOneMeaning : Obligations.EachWordHasOneMeaning := by
  unfold Obligations.EachWordHasOneMeaning
  exact ⟨fun _ _ => encode_of_decodeStrobe, fun _ _ => encode_of_decodePhase, fun _ _ => encode_of_decodeRequest⟩

end Sys2Proof

namespace Sys2Proof.Safety

open Sys2Proof.Machine

/-! ### Requests and phases without a meaning -/

/-- The names under which a command is refused (R168, R175). -/
theorem commandRefusal_eq_some {ena : Bool} {i : Instr} {why : Refusal} (h : commandRefusal ena i = some why) :
    why = .openWhileOpen ∨ why = .closedDevice := by
  cases i with
  | openDev _ =>
    simp only [commandRefusal] at h
    split_ifs at h
    exact .inl (Option.some.inj h).symm
  | write _ _ | read | query =>
    simp only [commandRefusal] at h
    split_ifs at h
    exact .inr (Option.some.inj h).symm
  | close | transmit _ | idle | clklo | dset | clkhi | hold | latch | lwait => cases h

/-- The names under which a pending request is refused (R72, R76, R168, R175). -/
theorem requestRefusal_eq_some {ena : Bool} {r : Request} {why : Refusal} (h : requestRefusal ena r = some why) :
    (∃ op, why = .reservedOpcode op) ∨ why = .openWhileOpen ∨ why = .closedDevice ∨ why = .malformedRequest := by
  unfold requestRefusal at h
  split at h
  case h_1 e hd =>
    obtain rfl : refusalOf e = why := by simpa using h
    rcases decodeRequest_error hd with rfl | rfl
    · exact .inr (.inr (.inr rfl))
    · exact .inl ⟨_, rfl⟩
  case h_2 i hd =>
    rcases commandRefusal_eq_some h with rfl | rfl
    · exact .inr (.inl rfl)
    · exact .inr (.inr (.inl rfl))

/-- R76, R168, R175: in an answerable state no opcode is reserved, an OPEN finds the device closed, and a WRITE, READ
or QUERY finds it open. -/
theorem opcode_of_answerable {s : State} {p : Port} {r : Request} (ha : answerable s)
    (hr : pending s p = some r) :
    (headerOp r.hdr).toNat < 5 ∧ (headerOp r.hdr = 0 → s.ena = false)
      ∧ (headerOp r.hdr = 1 ∨ headerOp r.hdr = 2 ∨ headerOp r.hdr = 3 → s.ena = true) := by
  obtain ⟨i, hd, hm⟩ := decodeRequest_of_answerable ha hr
  simp only [← BitVec.toNat_inj]
  rcases decodeRequest_eq_ok hd with ⟨hop, _, rfl⟩ | ⟨hop, rfl, _⟩ | ⟨hop, _, rfl⟩ | ⟨hop, _, rfl⟩ | ⟨hop, _, rfl⟩
  · simpa [hop, commandRefusal] using hm
  · simpa [hop, commandRefusal] using hm
  · simpa [hop, commandRefusal] using hm
  · simpa [hop, commandRefusal] using hm
  · simp [hop]

/-- Settles O5: the state is not answerable, and the first request without a meaning gives the refusal its name. -/
theorem requestsWithoutMeaningAreRefused : Obligations.RequestsWithoutMeaningAreRefused := by
  unfold Obligations.RequestsWithoutMeaningAreRefused
  intro s p r hr hwithout
  cases hstand : standingRefusal s with
  | none =>
    obtain ⟨hop, hopen, hclosed⟩ := opcode_of_answerable hstand hr
    rcases hwithout with h | ⟨h, he⟩ | ⟨h, he⟩
    · omega
    · simp [hopen h] at he
    · simp [hclosed h] at he
  | some why =>
    obtain ⟨c, _, hc⟩ := List.exists_of_findSome?_eq_some hstand
    exact ⟨why, by simp [step, hstand], requestRefusal_eq_some hc⟩

/-- R100: where nothing is refused, no strobe stands and the next move is a tick or none, a step is the tick. -/
theorem step_of_ticksNext {s : State} (ha : answerable s) (hs : noStrobeStands s = true) (ht : ticksNext s = true) :
    step s = tickStep { s with moves := s.moves.tail } := by
  cases hm : s.moves with
  | nil =>
    have hno : strobeStart s.strobe = false := by simpa [noStrobeStands] using hs
    have hsame : { s with moves := [] } = s := by rw [← hm]
    unfold answerable at ha
    simp [step, ha, decodeStrobe, hno, hm, hsame]
  | cons m ms =>
    obtain rfl : m = .tick := by simpa [ticksNext, hm] using ht
    exact step_of_move ha hs hm

/-- Settles O7: the step is the tick, and PH = 7 selects no phase. -/
theorem phaseSevenIsRefused : Obligations.PhaseSevenIsRefused := by
  unfold Obligations.PhaseSevenIsRefused
  intro s hp ha hs ht
  simp [step_of_ticksNext ha hs ht, tickStep, hp, decodePhase, refusalOf]

/-! ### The answer to a request -/

/-- A command leaves the answers, or adds one that is no IndexError to the port the gate serves, which is then free
(R77, R187). -/
def answersAtMostOnce (s t : State) : Prop :=
  t.answers = s.answers
    ∨ ∃ a, t.answers = s.answers ++ [(s.grant, a)] ∧ pending t s.grant = none ∧ a.st ≠ .indexError

theorem answersAtMostOnce_respond (s : State) {st : Status} (hst : st ≠ .indexError) (v : Word) (d : List Byte) :
    answersAtMostOnce s (respond s st v d) := .inr ⟨_, rfl, by simp, hst⟩

theorem answersAtMostOnce_of_exec {i : Instr} {s t : State} (hi : i.isCommand = true) (ht : exec i s = .next t) :
    answersAtMostOnce s t :=
  command_outcome (P := answersAtMostOnce s) hi ht
    (opened := fun n _ _ _ => answersAtMostOnce_respond (openRegisters (openCount n) s) (by decide) _ _)
    (openFailed := fun _ => answersAtMostOnce_respond s (by decide) _ _)
    (rangeError := fun _ => answersAtMostOnce_respond s (by decide) _ _)
    (sizeError := fun _ => answersAtMostOnce_respond s (by decide) _ _)
    (ended := fun len _ _ _ _ _ _ _ => answersAtMostOnce_respond { s with lock := false } (by decide) len [])
    (begun := fun len data _ _ _ _ => .inl (writeBegin_answers len data s))
    (copyError := fun _ _ => answersAtMostOnce_respond s (by decide) _ _)
    (blocked := fun _ _ => .inl rfl)
    (snapshot := fun _ _ => answersAtMostOnce_respond { s with draws := narrowDraws s (frameLen s) } (by decide) _ _)
    (queried := fun _ => answersAtMostOnce_respond s (by decide) _ _)
    (closedAgain := fun _ => answersAtMostOnce_respond s (by decide) _ _)
    (closed := fun _ _ => answersAtMostOnce_respond (closeRegisters s) (by decide) _ _)

/-- Settles O49: of the kinds of step only a command at a port answers, and it answers that port. -/
theorem oneAnswerPerRequest : Obligations.OneAnswerPerRequest := by
  unfold Obligations.OneAnswerPerRequest
  intro s t ht
  rcases (step_cases ht).2 with ⟨_, rfl⟩ | ⟨_, _, ht⟩ | ⟨_, p, r, ms, _, rfl⟩ | ⟨_, p, x, y, ms, _, _, rfl⟩ |
    ⟨_, p, x, y, ms, r, i, _, hr, _, hi, ht⟩
  · exact .inl rfl
  · exact .inl (by rw [(tickStep_frame ht).1])
  · exact .inl (by rw [submit_frame])
  · exact .inl rfl
  · rcases answersAtMostOnce_of_exec hi ht with hsame | ⟨a, hadd, hfree, hst⟩
    · exact .inl hsame
    · exact .inr ⟨p, a, hadd, by simp [hr], hfree, hst⟩

end Sys2Proof.Safety
end

section
/-! SUPPORT and PROOF. The encoder's instructions one by one (spec/40_encoder.md R101 to R108): what TRANSMIT and each
phase write, and what a step fetches. -/

namespace Sys2Proof.Safety

open Sys2Proof.Machine

/-! ### TRANSMIT and the phases without a condition -/

/-- Settles O8: the register writes of `startTransmit`. -/
theorem transmitStartsTheEncoder : Obligations.TransmitStartsTheEncoder := by
  unfold Obligations.TransmitStartsTheEncoder
  intro n s
  rfl

/-- Settles O9. -/
theorem idlePhaseDoesNothing : Obligations.IdlePhaseDoesNothing := by
  unfold Obligations.IdlePhaseDoesNothing
  intro s
  rfl

/-- Settles O10: `setClock false` with its event, and the next phase. -/
theorem clkloSetsTheClockLow : Obligations.ClkloSetsTheClockLow := by
  unfold Obligations.ClkloSetsTheClockLow
  intro s
  rfl

/-- Settles O13: `setClock true` with its event, the hold's length and the next phase. -/
theorem clkhiSetsTheClockHigh : Obligations.ClkhiSetsTheClockHigh := by
  unfold Obligations.ClkhiSetsTheClockHigh
  intro s
  rfl

/-- Settles O15: `setClock false` with its event, the wait's length and the next phase. -/
theorem latchSetsTheClockLow : Obligations.LatchSetsTheClockLow := by
  unfold Obligations.LatchSetsTheClockLow
  intro s
  rfl

/-! ### DSET -/

/-- R104: inside the frame the bit to send is `FB[BYP][BITC]`. -/
theorem currentBit_of_inside {s : State} (h : s.byp.toNat < frameLen s) :
    currentBit s = some ((Memory.read s.fb s.byp.toNat).getLsbD s.bitc.toNat) := by
  simp [currentBit, frameByte, h, bitOf]

theorem execDset_of_inside {s : State} (h : s.byp.toNat < frameLen s) :
    execDset s = .next { setData s ((Memory.read s.fb s.byp.toNat).getLsbD s.bitc.toNat) with ph := phClkhi } := by
  simp [execDset, currentBit_of_inside h]

/-- Settles O11: BYP in the frame names a byte, and its bit goes on the data line. -/
theorem dsetSendsTheCurrentBit : Obligations.DsetSendsTheCurrentBit := by
  unfold Obligations.DsetSendsTheCurrentBit
  intro s h
  exact execDset_of_inside h

/-! ### HOLD and LWAIT count down -/

/-- R25: for a DLY of at least 1 the countdown uses no free value. -/
theorem countDelay_of_pos {s : State} (h : 1 ≤ s.dly) : countDelay s = { s with dly := s.dly - 1 } := by
  have h0 : s.dly ≠ 0 := by omega
  simp [countDelay, delayMinusOne_of_pos h, h0]

/-- R106: a hold that is not over keeps its phase. -/
theorem execHold_of_counting {s : State} (h : 1 < s.dly) :
    execHold s = .next { s with dly := s.dly - 1, ph := phHold } := by
  have hpos : 1 ≤ s.dly := by omega
  have hmore : s.dly - 1 ≠ 0 := by omega
  simp [execHold, delayMinusOne_of_pos hpos, hmore, countDelay_of_pos hpos]

/-- R106: the last tick of a hold. -/
theorem execHold_of_last {s : State} (h : s.dly = 1) : execHold s = .next (holdDone s { s with dly := 0 }) := by
  have hpos : 1 ≤ s.dly := by omega
  simp [execHold, delayMinusOne_of_pos hpos, countDelay_of_pos hpos, h]

/-- R106: within a byte the next bit follows. -/
theorem execHold_of_moreBits {s : State} (hd : s.dly = 1) (hb : s.bitc ≠ 0) :
    execHold s = .next { s with
      dly := 0, oplog := s.oplog ++ [.w s.cfg.holdTicks], bitc := s.bitc - 1, ph := phClklo } := by
  rw [execHold_of_last hd, holdDone, if_pos hb]
  rfl

/-- R106: after a byte's last bit the next byte follows, or the latch. BYP is below TXLEN, so `BYP + 1` fits 32 bits
(R60). -/
theorem execHold_of_lastBit {s : State} (hd : s.dly = 1) (hb : s.bitc = 0) (hbyp : s.byp.toNat < s.txlen.toNat) :
    execHold s = .next { s with
      dly := 0
      oplog := s.oplog ++ [.w s.cfg.holdTicks]
      byp := s.byp + 1
      bitc := 7
      ph := if s.byp.toNat + 1 < s.txlen.toNat then phClklo else phLatch } := by
  have hfits : s.byp.toNat + 1 < 2 ^ 32 := by omega
  have hword : BitVec.ofNat 32 (s.byp.toNat + 1) = s.byp + 1 := BitVec.eq_of_toNat_eq (by simp)
  rw [execHold_of_last hd, holdDone, if_neg (not_not.2 hb), nextByte, narrowWord_of_lt hfits, narrowDraws_of_lt hfits,
    hword]
  rfl

/-- R106: whatever BYP is, the end of a hold leaves the pins and goes to CLKLO or LATCH. -/
theorem holdDone_frame (s c : State) :
    holdDone s c = { c with
        oplog := c.oplog ++ [.w s.cfg.holdTicks]
        bitc := (holdDone s c).bitc
        byp := (holdDone s c).byp
        ph := (holdDone s c).ph
        draws := (holdDone s c).draws }
      ∧ ((holdDone s c).ph = phClklo ∨ (holdDone s c).ph = phLatch) := by
  by_cases h : s.bitc = 0
  · have heq : holdDone s c = _ := if_neg (not_not.2 h)
    rw [heq]
    exact ⟨rfl, ite_eq_or_eq _ _ _⟩
  · have heq : holdDone s c = _ := if_pos h
    rw [heq]
    exact ⟨rfl, .inl rfl⟩

/-- R108: a wait that is not over keeps its phase. -/
theorem execLwait_of_counting {s : State} (h : 1 < s.dly) :
    execLwait s = .next { s with dly := s.dly - 1, ph := phLwait } := by
  have hpos : 1 ≤ s.dly := by omega
  have hmore : s.dly - 1 ≠ 0 := by omega
  simp [execLwait, delayMinusOne_of_pos hpos, hmore, countDelay_of_pos hpos]

/-- R108: the last tick of a wait. -/
theorem execLwait_of_last {s : State} (h : s.dly = 1) :
    execLwait s = .next { s with dly := 0, oplog := s.oplog ++ [.l s.cfg.latchTicks], ph := phIdle } := by
  have hpos : 1 ≤ s.dly := by omega
  simp [execLwait, delayMinusOne_of_pos hpos, countDelay_of_pos hpos, h, logEvent]

/-- Settles O14, by R106's branches: the hold is not over, a bit of the byte is left, the byte is done. -/
theorem holdCountsThenMovesOn : Obligations.HoldCountsThenMovesOn := by
  unfold Obligations.HoldCountsThenMovesOn
  intro s hdly hbyp
  by_cases hlast : s.dly - 1 = 0
  · have hone : s.dly = 1 := by omega
    rw [if_pos hlast]
    by_cases hb : s.bitc = 0
    · rw [if_neg (not_not.2 hb)]
      exact execHold_of_lastBit hone hb hbyp
    · rw [if_pos hb]
      exact execHold_of_moreBits hone hb
  · rw [if_neg hlast]
    exact execHold_of_counting (by omega)

/-- Settles O16, by R108's branches: the wait is not over, or it is. -/
theorem lwaitCountsThenReturns : Obligations.LwaitCountsThenReturns := by
  unfold Obligations.LwaitCountsThenReturns
  intro s hdly
  by_cases hlast : s.dly - 1 = 0
  · rw [if_pos hlast]
    exact execLwait_of_last (by omega)
  · rw [if_neg hlast]
    exact execLwait_of_counting (by omega)

/-! ### What the phases leave unchanged -/

/-- HOLD in every state (R106): the pins, TXLEN, the frame and the requests stay. -/
theorem execHold_frame {s t : State} (h : execHold s = .next t) :
    t = { s with dly := t.dly, oplog := t.oplog, bitc := t.bitc, byp := t.byp, ph := t.ph, draws := t.draws } := by
  injection h with h
  subst h
  by_cases hd : delayMinusOne s = 0
  · rw [if_pos hd, (holdDone_frame s (countDelay s)).1]
    rfl
  · rw [if_neg hd]
    rfl

/-- LWAIT in every state (R108): the pins, the frame and the requests stay, and BYP, BITC, TXLEN. -/
theorem execLwait_frame {s t : State} (h : execLwait s = .next t) :
    t = { s with dly := t.dly, oplog := t.oplog, ph := t.ph, draws := t.draws } := by
  injection h with h
  subst h
  by_cases hd : delayMinusOne s = 0
  · rw [if_pos hd]
    rfl
  · rw [if_neg hd]
    rfl

/-- Settles O17, phase by phase: each clause but the phase's own speaks of another instruction. -/
theorem phasesCompleteWithTheirFrame : Obligations.PhasesCompleteWithTheirFrame := by
  unfold Obligations.PhasesCompleteWithTheirFrame
  intro i s hi hin
  cases i with
  | idle => exact ⟨s, rfl, by simp⟩
  | clklo => exact ⟨_, rfl, by simp, fun _ => rfl, by simp⟩
  | dset => exact ⟨_, execDset_of_inside (hin rfl), by simp, by simp, fun _ => rfl, by simp⟩
  | clkhi => exact ⟨_, rfl, by simp, by simp, by simp, fun _ => rfl, by simp⟩
  | hold =>
    obtain ⟨t, ht⟩ : ∃ t, execHold s = .next t := ⟨_, rfl⟩
    have hframe := execHold_frame ht
    exact ⟨t, ht, by simp, by simp, by simp, by simp, fun _ => hframe, by simp, by simp, fun a => by rw [hframe]⟩
  | latch => exact ⟨_, rfl, by simp, by simp, by simp, by simp, by simp, fun _ => rfl, by simp⟩
  | lwait =>
    obtain ⟨t, ht⟩ : ∃ t, execLwait s = .next t := ⟨_, rfl⟩
    have hframe := execLwait_frame ht
    exact ⟨t, ht, by simp, by simp, by simp, by simp, by simp, by simp, fun _ => hframe, fun a => by rw [hframe]⟩
  | openDev _ | write _ _ | read | query | close | transmit _ => simp [Instr.isPhase] at hi

/-! ### What a step fetches -/

/-- A strobe that stands is taken first (R101, log 12). -/
theorem step_of_strobe {s : State} (ha : answerable s) (hs : strobeStart s.strobe = true) :
    step s = exec (.transmit (strobeLen s.strobe)) { s with strobe := noStrobe } := by
  unfold answerable at ha
  simp [step, ha, decodeStrobe, hs]

/-- R100: a tick runs the phase that PH selects, with T counted up. -/
theorem tickStep_of_phase {s : State} {i : Instr} (h : decodePhase s.ph = .ok i) :
    tickStep s = exec i (countTick s) := by
  simp [tickStep, h]

/-- Settles O44, by the three channels an instruction is fetched from. -/
theorem stepRunsTheFetchedInstruction : Obligations.StepRunsTheFetchedInstruction := by
  unfold Obligations.StepRunsTheFetchedInstruction
  intro s ha
  refine ⟨step_of_strobe ha, fun hs ht i hi => ?_, fun hs p x y ms r i hm hr hd => ?_⟩
  · rw [step_of_ticksNext ha (by simp [noStrobeStands, hs]) ht]
    exact tickStep_of_phase (s := { s with moves := s.moves.tail }) hi
  · rw [step_of_move ha (by simp [noStrobeStands, hs]) hm]
    exact gateStep_of_pending (s := { s with moves := ms }) x y hr hd

end Sys2Proof.Safety
end

section
/-! SUPPORT and PROOF. Every step and the encoder's position (spec/40_encoder.md R110 to R114): one tick phase by phase,
what a step that is no tick does to the pins and the position, and the ticks a transmit has left. -/

namespace Sys2Proof.Safety

open Sys2Proof.Machine

/-! ### One tick, phase by phase -/

section
variable {s : State}

/-- R103. -/
theorem tickStep_of_clklo (hp : s.ph = phClklo) :
    tickStep s = .next { s with clk := false, oplog := s.oplog ++ [.c0], ph := phDset, t := s.t + 1 } :=
  tickStep_of_phase (i := .clklo) (by rw [hp]; rfl)

/-- R104. -/
theorem tickStep_of_dset {b : Bool} (hp : s.ph = phDset) (hb : currentBit s = some b) :
    tickStep s = .next { s with
      dat := b, oplog := s.oplog ++ [if b then .d1 else .d0], ph := phClkhi, t := s.t + 1 } := by
  have hbit : currentBit (countTick s) = some b := hb
  rw [tickStep_of_phase (i := .dset) (by rw [hp]; rfl), exec, execDset, hbit]
  rfl

/-- R105. -/
theorem tickStep_of_clkhi (hp : s.ph = phClkhi) :
    tickStep s = .next { s with
      clk := true, oplog := s.oplog ++ [.c1], dly := s.cfg.holdTicks, ph := phHold, t := s.t + 1 } :=
  tickStep_of_phase (i := .clkhi) (by rw [hp]; rfl)

/-- R107. -/
theorem tickStep_of_latch (hp : s.ph = phLatch) :
    tickStep s = .next { s with
      clk := false, oplog := s.oplog ++ [.c0], dly := s.cfg.latchTicks, ph := phLwait, t := s.t + 1 } :=
  tickStep_of_phase (i := .latch) (by rw [hp]; rfl)

/-- R106, R108: while DLY counts, HOLD and LWAIT do the same. -/
theorem tickStep_of_counting (hp : s.ph = phHold ∨ s.ph = phLwait) (hd : 1 < s.dly) :
    tickStep s = .next { s with dly := s.dly - 1, t := s.t + 1 } := by
  rcases hp with hp | hp
  · have hexec : exec .hold (countTick s) = _ := execHold_of_counting (s := countTick s) hd
    rw [tickStep_of_phase (i := .hold) (by rw [hp]; rfl), hexec, ← hp]
    rfl
  · have hexec : exec .lwait (countTick s) = _ := execLwait_of_counting (s := countTick s) hd
    rw [tickStep_of_phase (i := .lwait) (by rw [hp]; rfl), hexec, ← hp]
    rfl

/-- R106. -/
theorem tickStep_of_moreBits (hp : s.ph = phHold) (hd : s.dly = 1) (hb : s.bitc ≠ 0) :
    tickStep s = .next { s with
      dly := 0, oplog := s.oplog ++ [.w s.cfg.holdTicks], bitc := s.bitc - 1, ph := phClklo, t := s.t + 1 } :=
  (tickStep_of_phase (i := .hold) (by rw [hp]; rfl)).trans (execHold_of_moreBits (s := countTick s) hd hb)

/-- R106. -/
theorem tickStep_of_lastBit (hp : s.ph = phHold) (hd : s.dly = 1) (hb : s.bitc = 0)
    (hbyp : s.byp.toNat < s.txlen.toNat) :
    tickStep s = .next { s with
      dly := 0
      oplog := s.oplog ++ [.w s.cfg.holdTicks]
      byp := s.byp + 1
      bitc := 7
      ph := if s.byp.toNat + 1 < s.txlen.toNat then phClklo else phLatch
      t := s.t + 1 } :=
  (tickStep_of_phase (i := .hold) (by rw [hp]; rfl)).trans (execHold_of_lastBit (s := countTick s) hd hb hbyp)

/-- R108. -/
theorem tickStep_of_waitOver (hp : s.ph = phLwait) (hd : s.dly = 1) :
    tickStep s = .next { s with
      dly := 0, oplog := s.oplog ++ [.l s.cfg.latchTicks], ph := phIdle, t := s.t + 1 } :=
  (tickStep_of_phase (i := .lwait) (by rw [hp]; rfl)).trans (execLwait_of_last (s := countTick s) hd)

/-- Two accounts of one tick agree. -/
theorem eq_of_tickStep {t u : State} (hu : tickStep s = .next u) (ht : tickStep s = .next t) : t = u := by
  rw [hu] at ht
  exact (Host.Outcome.next.inj ht).symm

/-- R111: of the phases DSET alone moves DAT, with the clock as it was, and CLKHI alone raises the clock. -/
theorem tickStep_pins {t : State} (ht : tickStep s = .next t) :
    (t.dat = s.dat ∨ (s.ph = phDset ∧ t.clk = s.clk ∧ t.ph = phClkhi))
      ∧ (t.clk = true → t.clk = s.clk ∨ (s.ph = phClkhi ∧ t.dat = s.dat)) := by
  rcases tickStep_next ht with ⟨_, rfl⟩ | ⟨hp, _⟩ | ⟨hp, ht⟩ | ⟨hp, _⟩ | ⟨_, ht⟩ | ⟨hp, _⟩ | ⟨_, ht⟩
  · exact ⟨.inl rfl, fun _ => .inl rfl⟩
  · rw [eq_of_tickStep (tickStep_of_clklo hp) ht]
    exact ⟨.inl rfl, fun hclk => by simp at hclk⟩
  · obtain ⟨b, -, rfl⟩ := execDset_next ht
    exact ⟨.inr ⟨hp, rfl, rfl⟩, fun _ => .inl rfl⟩
  · rw [eq_of_tickStep (tickStep_of_clkhi hp) ht]
    exact ⟨.inl rfl, fun _ => .inr ⟨hp, rfl⟩⟩
  · rw [execHold_frame ht]
    exact ⟨.inl rfl, fun _ => .inl rfl⟩
  · rw [eq_of_tickStep (tickStep_of_latch hp) ht]
    exact ⟨.inl rfl, fun hclk => by simp at hclk⟩
  · rw [execLwait_frame ht]
    exact ⟨.inl rfl, fun _ => .inl rfl⟩

end

/-! ### The steps that are no tick -/

/-- What a command does to the pins and the position (R101, R114, R166): it leaves them, or takes the lock and starts
the encoder on the whole frame, or opens the device with both at rest. -/
def sequencerEffect (s t : State) : Prop :=
  (t.clk = s.clk ∧ t.dat = s.dat ∧ t.ph = s.ph ∧ t.byp = s.byp ∧ t.bitc = s.bitc) ∨
  (s.lock = false ∧ t.lock = true ∧ t.clk = s.clk ∧ t.dat = s.dat ∧ t.byp = 0 ∧ t.bitc = 7 ∧ s.ena = true
    ∧ t.txlen = frameCount s ∧ t.ph = if t.txlen = 0 then phLatch else phClklo) ∨
  (s.ena = false ∧ t.ena = true ∧ t.clk = false ∧ t.byp = 0 ∧ t.bitc = 7 ∧ t.ph = phIdle)

theorem sequencerEffect_respond (s : State) (st : Status) (v : Word) (d : List Byte) :
    sequencerEffect s (respond s st v d) := .inl ⟨rfl, rfl, rfl, rfl, rfl⟩

theorem sequencerEffect_of_exec {i : Instr} {s t : State} (hi : i.isCommand = true) (ht : exec i s = .next t) :
    sequencerEffect s t :=
  command_outcome (P := sequencerEffect s) hi ht
    (opened := fun _ _ he _ => .inr (.inr ⟨he, rfl, rfl, rfl, rfl, rfl⟩))
    (openFailed := fun _ => sequencerEffect_respond s _ _ _)
    (rangeError := fun _ => sequencerEffect_respond s _ _ _)
    (sizeError := fun _ => sequencerEffect_respond s _ _ _)
    (ended := fun _ _ _ _ _ _ _ _ => .inl ⟨rfl, rfl, rfl, rfl, rfl⟩)
    (begun := fun len data _ he _ hl => .inr (.inl
      ⟨hl, by simp, by simp, by simp, by simp, by simp, he, by simp, by simp⟩))
    (copyError := fun _ _ => sequencerEffect_respond s _ _ _)
    (blocked := fun _ _ => .inl ⟨rfl, rfl, rfl, rfl, rfl⟩)
    (snapshot := fun _ _ => .inl ⟨rfl, rfl, rfl, rfl, rfl⟩)
    (queried := fun _ => sequencerEffect_respond s _ _ _)
    (closedAgain := fun _ => sequencerEffect_respond s _ _ _)
    (closed := fun _ _ => .inl ⟨rfl, rfl, rfl, rfl, rfl⟩)

/-- A step is a tick and counts one, or takes a standing strobe, or does to the position what a command can do. -/
theorem step_tick_or_quiet {s t : State} (ht : step s = .next t) :
    (tickStep { s with moves := s.moves.tail } = .next t ∧ t.t = s.t + 1) ∨
      (t.t = s.t ∧
        ((strobeStart s.strobe = true ∧ t = startTransmit { s with strobe := noStrobe } (strobeLen s.strobe)) ∨
          sequencerEffect s t)) := by
  rcases (step_cases ht).2 with ⟨hs, rfl⟩ | ⟨_, _, ht⟩ | ⟨_, p, r, ms, _, rfl⟩ | ⟨_, p, x, y, ms, _, _, rfl⟩ |
    ⟨_, p, x, y, ms, r, i, _, _, _, hi, ht⟩
  · exact .inr ⟨rfl, .inl ⟨hs, rfl⟩⟩
  · exact .inl ⟨ht, by rw [(tickStep_frame ht).1]⟩
  · rw [submit_frame]
    exact .inr ⟨rfl, .inr (.inl ⟨rfl, rfl, rfl, rfl, rfl⟩)⟩
  · exact .inr ⟨rfl, .inr (.inl ⟨rfl, rfl, rfl, rfl, rfl⟩)⟩
  · have heffect : sequencerEffect (selectPort { s with moves := ms } p x y) t := sequencerEffect_of_exec hi ht
    exact .inr ⟨(commandEffect_of_exec hi ht).2.1, .inr heffect⟩

/-- Settles O18: TRANSMIT and the ticks row by row, and of the other steps the strobe, the write-begin and the OPEN
move the position. -/
theorem encoderFollowsTheNextPhaseTable : Obligations.EncoderFollowsTheNextPhaseTable := by
  unfold Obligations.EncoderFollowsTheNextPhaseTable
  refine ⟨fun n s => ⟨_, rfl, fun hn => if_neg ?_, fun hn => if_pos hn⟩, fun s t ht _ _ => ?_,
    fun s t ht hq hmoved => ?_⟩
  · rintro rfl
    simp at hn
  · refine ⟨fun hp => ?_, fun hp => ?_, fun hp => ?_, fun hp => ?_, fun hp hd => ?_, fun hp hd hb => ?_,
      fun hp hd hb hbyp => ?_, fun hp hd hb hbyp => ?_, fun hp => ?_, fun hp hd => ?_, fun hp hd => ?_⟩
    · rw [eq_of_tickStep (tickStep_of_idle hp) ht]
      exact hp
    · rw [eq_of_tickStep (tickStep_of_clklo hp) ht]
    · rw [tickStep_of_phase (i := .dset) (by rw [hp]; rfl)] at ht
      obtain ⟨b, -, rfl⟩ := execDset_next ht
      rfl
    · rw [eq_of_tickStep (tickStep_of_clkhi hp) ht]
    · rw [eq_of_tickStep (tickStep_of_counting (.inl hp) hd) ht]
      exact hp
    · rw [eq_of_tickStep (tickStep_of_moreBits hp hd hb) ht]
      exact ⟨rfl, rfl⟩
    · rw [eq_of_tickStep (tickStep_of_lastBit hp hd hb (by omega)) ht]
      exact ⟨if_pos hbyp, rfl⟩
    · rw [eq_of_tickStep (tickStep_of_lastBit hp hd hb (by omega)) ht]
      exact if_neg (by omega)
    · rw [eq_of_tickStep (tickStep_of_latch hp) ht]
    · rw [eq_of_tickStep (tickStep_of_counting (.inr hp) hd) ht]
      exact hp
    · rw [eq_of_tickStep (tickStep_of_waitOver hp hd) ht]
  · rcases step_tick_or_quiet ht with ⟨_, htime⟩ | ⟨_, ⟨hs, rfl⟩ | ⟨_, _, hph, hbyp, hbitc⟩ |
      ⟨hl, hl', _, _, hbyp, hbitc, _, _, hph⟩ | ⟨he, he', _, hbyp, hbitc, hph⟩⟩
    · omega
    · exact ⟨rfl, rfl, .inl ⟨.inl hs, rfl⟩⟩
    · simp [hph, hbyp, hbitc] at hmoved
    · exact ⟨hbyp, hbitc, .inl ⟨.inr ⟨hl, hl'⟩, hph⟩⟩
    · exact ⟨hbyp, hbitc, .inr ⟨he, he', hph⟩⟩

/-- Settles O24: of the ticks DSET moves DAT and CLKHI raises the clock; of the other steps only OPEN writes the pins,
and the invariant has the clock of a closed device low. -/
theorem dataChangesOnlyWhileTheClockIsLow : Obligations.DataChangesOnlyWhileTheClockIsLow := by
  unfold Obligations.DataChangesOnlyWhileTheClockIsLow
  intro s t h ht
  rcases step_tick_or_quiet ht with ⟨ht, _⟩ | ⟨hq, ⟨hs, _⟩ | ⟨hclk, hdat, _⟩ | ⟨_, _, hclk, hdat, _⟩ |
    ⟨he, _, hclk, _⟩⟩
  · obtain ⟨hdat, hrise⟩ := tickStep_pins ht
    refine ⟨fun hne => ?_, fun hlow hhigh => ?_⟩
    · obtain ⟨hp, hclk, hph⟩ := hdat.resolve_left hne
      have hlow : s.clk = false := h.clock.1 (.inr (.inl hp))
      exact ⟨hlow, hclk.trans hlow, fun _ => hph⟩
    · rcases hrise hhigh with hclk | ⟨hp, hdat⟩
      · simp [hclk, hlow] at hhigh
      · exact ⟨hdat, hp⟩
  · simp [h.strobeStart_eq_false] at hs
  · exact ⟨fun hne => absurd hdat hne, fun hlow hhigh => by simp [hclk, hlow] at hhigh⟩
  · exact ⟨fun hne => absurd hdat hne, fun hlow hhigh => by simp [hclk, hlow] at hhigh⟩
  · have hlow : s.clk = false := h.clk_of_idle (h.closedAtRest he).2
    exact ⟨fun _ => ⟨hlow, hclk, fun htime => by omega⟩, fun _ hhigh => by simp [hclk] at hhigh⟩

/-! ### While a transmit is in progress -/

/-- R59, R114: while the lock is held and the encoder runs, a command answers without a register write or waits. -/
theorem requestsOnly_of_exec {i : Instr} {s t : State} (he : s.ena = true) (hl : s.lock = true) (hp : s.ph ≠ phIdle)
    (hi : i.isCommand = true) (ht : exec i s = .next t) : t = { s with pend := t.pend, answers := t.answers } := by
  have hopen : s.ena ≠ false := by simp [he]
  have hheld : s.lock ≠ false := by simp [hl]
  exact command_outcome (P := fun t => t = { s with pend := t.pend, answers := t.answers }) hi ht
    (opened := fun _ _ hf _ => absurd hf hopen)
    (openFailed := fun _ => rfl)
    (rangeError := fun _ => rfl)
    (sizeError := fun _ => rfl)
    (ended := fun _ _ _ _ _ _ hidle _ => absurd hidle hp)
    (begun := fun _ _ _ _ _ hf => absurd hf hheld)
    (copyError := fun _ _ => rfl)
    (blocked := fun _ _ => rfl)
    (snapshot := fun _ hf => absurd hf hheld)
    (queried := fun _ => rfl)
    (closedAgain := fun _ => rfl)
    (closed := fun _ hf => absurd hf hheld)

/-- Settles O23: the invariant has the lock held, and no strobe stands. -/
theorem gateStepsNeverDisturbATransmit : Obligations.GateStepsNeverDisturbATransmit := by
  unfold Obligations.GateStepsNeverDisturbATransmit
  intro s t h hp ht hq
  have hl : s.lock = true := h.busyHoldsLock hp
  rcases (step_cases ht).2 with ⟨hs, _⟩ | ⟨_, _, ht⟩ | ⟨_, p, r, ms, _, rfl⟩ | ⟨_, p, x, y, ms, _, _, rfl⟩ |
    ⟨_, p, x, y, ms, r, i, _, _, _, hi, ht⟩
  · simp [h.strobeStart_eq_false] at hs
  · have htime : t.t = s.t + 1 := by rw [(tickStep_frame ht).1]
    omega
  · rw [submit_frame]
  · rfl
  · rw [requestsOnly_of_exec (s := selectPort { s with moves := ms } p x y) (h.ena_of_lock hl) hl hp hi ht]
    rfl

/-! ### The ticks a transmit has left -/

section
variable {s : State}

theorem ticksLeft_of_idle (hp : s.ph = phIdle) : ticksLeft s = 0 := by
  rw [ticksLeft, hp]
  rfl

theorem ticksLeft_of_clklo (hp : s.ph = phClklo) : ticksLeft s = 3 + s.cfg.holdTicks + ticksAfterBit s := by
  rw [ticksLeft, hp]
  rfl

theorem ticksLeft_of_dset (hp : s.ph = phDset) : ticksLeft s = 2 + s.cfg.holdTicks + ticksAfterBit s := by
  rw [ticksLeft, hp]
  rfl

theorem ticksLeft_of_clkhi (hp : s.ph = phClkhi) : ticksLeft s = 1 + s.cfg.holdTicks + ticksAfterBit s := by
  rw [ticksLeft, hp]
  rfl

theorem ticksLeft_of_hold (hp : s.ph = phHold) : ticksLeft s = s.dly + ticksAfterBit s := by
  rw [ticksLeft, hp]
  rfl

theorem ticksLeft_of_latch (hp : s.ph = phLatch) : ticksLeft s = 1 + s.cfg.latchTicks := by
  rw [ticksLeft, hp]
  rfl

theorem ticksLeft_of_lwait (hp : s.ph = phLwait) : ticksLeft s = s.dly := by
  rw [ticksLeft, hp]
  rfl

end

/-- R60: below another 32-bit number `BYP + 1` does not wrap. -/
theorem toNat_succ_of_lt {a b : Word} (h : a.toNat < b.toNat) : (a + 1).toNat = a.toNat + 1 := by
  have hb := b.isLt
  simp only [BitVec.toNat_add, BitVec.ofNat_eq_ofNat, BitVec.toNat_ofNat]
  omega

theorem toNat_pred_bitc : ∀ b : BitVec 3, b ≠ 0 → b.toNat = (b - 1).toNat + 1 := by decide

/-- R113: at the entry point the ticks of the whole transmit are left. -/
theorem ticksLeft_of_start {s : State} (hbyp : s.byp = 0) (hbitc : s.bitc = 7)
    (hp : s.ph = if s.txlen = 0 then phLatch else phClklo) :
    ticksLeft s = transmitTicks s.cfg s.txlen.toNat := by
  by_cases h0 : s.txlen = 0
  · rw [ticksLeft_of_latch (hp.trans (if_pos h0)), transmitTicks, h0]
    simp
  · have hn : s.txlen.toNat ≠ 0 := fun e => h0 (BitVec.eq_of_toNat_eq e)
    obtain ⟨n, hn⟩ := Nat.exists_eq_add_one_of_ne_zero hn
    have hleft : s.txlen.toNat - s.byp.toNat - 1 = n := by simp [hn, hbyp]
    have hseven : s.bitc.toNat = 7 := by rw [hbitc]; rfl
    rw [ticksLeft_of_clklo (hp.trans (if_neg h0)), ticksAfterBit, transmitTicks, hleft, hseven, hn]
    ring

section
variable {s t : State} (htx : t.txlen = s.txlen) (hcfg : t.cfg = s.cfg)
include htx hcfg

/-- R106: what is owed after a bit that is not the byte's last: the next bit and what is owed after that. -/
theorem ticksAfterBit_of_moreBits (hb : s.bitc ≠ 0) (hbitc : t.bitc = s.bitc - 1) (hbyp : t.byp = s.byp) :
    ticksAfterBit s = 3 + s.cfg.holdTicks + ticksAfterBit t := by
  simp only [ticksAfterBit, hbitc, hbyp, htx, hcfg, toNat_pred_bitc _ hb]
  ring

/-- R106: what is owed after a byte's last bit when another byte follows: the next byte's first bit and what is owed
after that. -/
theorem ticksAfterBit_of_moreBytes (hb : s.bitc = 0) (hbitc : t.bitc = 7) (hbyp : t.byp = s.byp + 1)
    (hmore : s.byp.toNat + 1 < s.txlen.toNat) :
    ticksAfterBit s = 3 + s.cfg.holdTicks + ticksAfterBit t := by
  have hnext : (s.byp + 1).toNat = s.byp.toNat + 1 := toNat_succ_of_lt (Nat.lt_of_succ_lt hmore)
  obtain ⟨n, hn⟩ := Nat.exists_eq_add_of_lt hmore
  have hleft : s.txlen.toNat - s.byp.toNat - 1 = n + 1 := by omega
  have hleft' : s.txlen.toNat - (s.byp.toNat + 1) - 1 = n := by omega
  have hzero : s.bitc.toNat = 0 := by rw [hb]; rfl
  have hseven : t.bitc.toNat = 7 := by rw [hbitc]; rfl
  rw [ticksAfterBit, ticksAfterBit, hzero, hseven, htx, hcfg, hbyp, hnext, hleft, hleft']
  ring

end

/-- R106: after the frame's last bit only the latch is owed. -/
theorem ticksAfterBit_of_lastBit {s : State} (hb : s.bitc = 0) (hlast : s.txlen.toNat ≤ s.byp.toNat + 1) :
    ticksAfterBit s = 1 + s.cfg.latchTicks := by
  have hleft : s.txlen.toNat - s.byp.toNat - 1 = 0 := by omega
  have hzero : s.bitc.toNat = 0 := by rw [hb]; rfl
  rw [ticksAfterBit, hzero, hleft]
  ring

section
variable {s : State} (h : positionTable s)
include h

theorem ticksLeft_eq_zero_iff : ticksLeft s = 0 ↔ s.ph = phIdle := by
  obtain ⟨-, -, hph⟩ := h
  constructor
  · intro hzero
    rcases phase_cases s.ph with hp | hp | hp | hp | hp | hp | hp | hp
    · exact hp
    · rw [ticksLeft_of_clklo hp] at hzero
      omega
    · rw [ticksLeft_of_dset hp] at hzero
      omega
    · rw [ticksLeft_of_clkhi hp] at hzero
      omega
    · rw [ticksLeft_of_hold hp] at hzero
      rw [hp] at hph
      obtain ⟨-, hdly, -⟩ := hph
      omega
    · rw [ticksLeft_of_latch hp] at hzero
      omega
    · rw [ticksLeft_of_lwait hp] at hzero
      rw [hp] at hph
      obtain ⟨hdly, -⟩ := hph
      omega
    · simp [hp] at hph
  · exact ticksLeft_of_idle

/-- R106: a tick of HOLD, by its branches. -/
theorem ticksLeft_of_holdTick {t : State} (hp : s.ph = phHold) (ht : tickStep s = .next t) :
    ticksLeft t + 1 = ticksLeft s := by
  obtain ⟨-, -, hph⟩ := h
  simp only [hp, phHold] at hph
  obtain ⟨hbyp, hdly, -⟩ := hph
  rw [ticksLeft_of_hold hp]
  rcases Nat.lt_or_eq_of_le hdly with hd | hd
  · have heq := eq_of_tickStep (tickStep_of_counting (.inl hp) hd) ht
    have hafter : ticksAfterBit t = ticksAfterBit s := by
      rw [heq]
      rfl
    rw [ticksLeft_of_hold (by rw [heq]; exact hp), hafter, heq]
    simp only
    omega
  · by_cases hb : s.bitc = 0
    · have heq := eq_of_tickStep (tickStep_of_lastBit hp hd.symm hb hbyp) ht
      have hcfg : t.cfg = s.cfg := by rw [heq]
      by_cases hmore : s.byp.toNat + 1 < s.txlen.toNat
      · have hafter := ticksAfterBit_of_moreBytes (t := t) (by rw [heq]) hcfg hb (by rw [heq]) (by rw [heq]) hmore
        rw [ticksLeft_of_clklo (by rw [heq]; exact if_pos hmore), hafter, hcfg]
        omega
      · rw [ticksLeft_of_latch (by rw [heq]; exact if_neg hmore), ticksAfterBit_of_lastBit hb (Nat.not_lt.1 hmore),
          hcfg]
        omega
    · have heq := eq_of_tickStep (tickStep_of_moreBits hp hd.symm hb) ht
      have hcfg : t.cfg = s.cfg := by rw [heq]
      have hafter := ticksAfterBit_of_moreBits (t := t) (by rw [heq]) hcfg hb (by rw [heq]) (by rw [heq])
      rw [ticksLeft_of_clklo (by rw [heq]), hafter, hcfg]
      omega

/-- R108: a tick of LWAIT, by its branches. -/
theorem ticksLeft_of_lwaitTick {t : State} (hp : s.ph = phLwait) (ht : tickStep s = .next t) :
    ticksLeft t + 1 = ticksLeft s := by
  obtain ⟨-, -, hph⟩ := h
  simp only [hp, phLwait] at hph
  rw [ticksLeft_of_lwait hp]
  rcases Nat.lt_or_eq_of_le hph.1 with hd | hd
  · have heq := eq_of_tickStep (tickStep_of_counting (.inr hp) hd) ht
    rw [ticksLeft_of_lwait (by rw [heq]; exact hp), heq]
    simp only
    omega
  · rw [ticksLeft_of_idle (by rw [eq_of_tickStep (tickStep_of_waitOver hp hd.symm) ht])]
    omega

/-- R113: during a transmit a tick brings IDLE one tick nearer. -/
theorem ticksLeft_of_tickStep {t : State} (hbusy : s.ph ≠ phIdle) (ht : tickStep s = .next t) :
    ticksLeft t + 1 = ticksLeft s := by
  have hframe := (tickStep_frame ht).1
  have hcfg : t.cfg = s.cfg := by rw [hframe]
  rcases tickStep_next ht with ⟨hp, _⟩ | ⟨hp, _⟩ | ⟨hp, hexec⟩ | ⟨hp, _⟩ | ⟨hp, _⟩ | ⟨hp, _⟩ | ⟨hp, _⟩
  · exact absurd hp hbusy
  · have heq := eq_of_tickStep (tickStep_of_clklo hp) ht
    have hafter : ticksAfterBit t = ticksAfterBit s := by
      rw [heq]
      rfl
    rw [ticksLeft_of_clklo hp, ticksLeft_of_dset (by rw [heq]), hafter, hcfg]
    omega
  · obtain ⟨b, -, heq⟩ := execDset_next hexec
    have hafter : ticksAfterBit t = ticksAfterBit s := by
      rw [heq]
      rfl
    rw [ticksLeft_of_dset hp, ticksLeft_of_clkhi (by rw [heq]), hafter, hcfg]
    omega
  · have heq := eq_of_tickStep (tickStep_of_clkhi hp) ht
    have hafter : ticksAfterBit t = ticksAfterBit s := by
      rw [heq]
      rfl
    rw [ticksLeft_of_clkhi hp, ticksLeft_of_hold (by rw [heq]), hafter, heq]
    simp only
    omega
  · exact ticksLeft_of_holdTick h hp ht
  · rw [ticksLeft_of_latch hp, eq_of_tickStep (tickStep_of_latch hp) ht, ticksLeft_of_lwait rfl]
    simp only
    omega
  · exact ticksLeft_of_lwaitTick h hp ht

end

/-- R113: what starts a transmit from IDLE under the invariant is a write-begin, and it owes the ticks of the frame. -/
theorem ticksLeft_of_writeBegin {s t : State} (h : Inv s) (hp : s.ph = phIdle) (ht : step s = .next t)
    (hbusy : t.ph ≠ phIdle) : ticksLeft t = transmitTicks s.cfg (frameLen s) ∧ t.t = s.t := by
  rcases step_tick_or_quiet ht with ⟨htick, _⟩ | ⟨hq, ⟨hs, _⟩ | ⟨_, _, hph, _⟩ |
    ⟨_, _, _, _, hbyp, hbitc, he, htx, hph⟩ | ⟨_, _, _, _, _, hph⟩⟩
  · rw [eq_of_tickStep (tickStep_of_idle (s := { s with moves := s.moves.tail }) hp) htick] at hbusy
    exact absurd hp hbusy
  · simp [h.strobeStart_eq_false] at hs
  · exact absurd (hph.trans hp) hbusy
  · have hlt : frameLen s < 2 ^ 32 := h.frameLen_lt he
    have hn : t.txlen.toNat = frameLen s := by
      rw [htx, frameCount, narrowWord_of_lt hlt]
      exact Nat.mod_eq_of_lt hlt
    rw [ticksLeft_of_start hbyp hbitc hph, hn, (onlyTicksMoveTimeAndTheLog s t ht).1]
    exact ⟨rfl, hq⟩
  · exact absurd hph hbusy

/-- Settles O22: a tick lowers the ticks left by one, every other step leaves what they are read off, and a
write-begin puts the encoder at its entry point. -/
theorem transmitTimeIsExactUnderEverySchedule : Obligations.TransmitTimeIsExactUnderEverySchedule := by
  unfold Obligations.TransmitTimeIsExactUnderEverySchedule
  intro s h
  refine ⟨ticksLeft_eq_zero_iff h.position, fun t ht => ⟨fun hp => ?_, fun hp => ticksLeft_of_writeBegin h hp ht⟩⟩
  rcases step_tick_or_quiet ht with ⟨htick, htime⟩ | ⟨hq, _⟩
  · have hless : ticksLeft t + 1 = ticksLeft s :=
      ticksLeft_of_tickStep (h.after_moves s.moves.tail).position hp htick
    exact ⟨by rw [htime, Nat.add_sub_cancel_left, hless], .inr htime⟩
  · have hsame : ticksLeft t = ticksLeft s := by
      rw [gateStepsNeverDisturbATransmit s t h hp ht hq]
      rfl
    exact ⟨by rw [hsame, hq, Nat.sub_self, Nat.add_zero], .inl hq⟩

end Sys2Proof.Safety
end

section
/-! SUPPORT and PROOF. The machine left to its ticks (spec/40_encoder.md R112, R113, R116, R119, R120): a hold and a
latch run to their ends, and a transmit puts the frame on the pins. -/

namespace Sys2Proof.Safety

open Sys2Proof.Machine

/-! ### Left to its ticks -/

/-- The environment chooses nothing more, no strobe stands and no request is without a meaning: every step is a tick
(R100). -/
def leftToTicks (s : State) : Prop := s.moves = [] ∧ noStrobeStands s = true ∧ answerable s

theorem step_of_leftToTicks {s : State} (h : leftToTicks s) : step s = tickStep s := by
  obtain ⟨hm, hs, ha⟩ := h
  have hsame : { s with moves := s.moves.tail } = s := by
    rw [hm, List.tail_nil, ← hm]
  rw [step_of_ticksNext ha hs (by simp [ticksNext, hm]), hsame]

/-- A tick writes nothing that `leftToTicks` reads. -/
theorem leftToTicks_of_tickStep {s t : State} (h : leftToTicks s) (ht : tickStep s = .next t) : leftToTicks t := by
  rw [(tickStep_frame ht).1]
  exact h

/-- `k` steps lead from `s` to `t`, which is left to its ticks, and over them a rising-edge receiver gets `bits`
(R34, R120). -/
structure Delivers (k : Nat) (bits : List Bool) (s t : State) : Prop where
  run : Sys2Proof.core.run k s = .next t
  edges : ∀ j, risingEdgeBits (k + j) s = bits ++ risingEdgeBits j t
  left : leftToTicks t

theorem Delivers.zero {s : State} (h : leftToTicks s) : Delivers 0 [] s s :=
  ⟨rfl, fun j => by rw [Nat.zero_add, List.nil_append], h⟩

theorem Delivers.trans {j k : Nat} {a b : List Bool} {s t u : State} (h₁ : Delivers j a s t) (h₂ : Delivers k b t u) :
    Delivers (j + k) (a ++ b) s u where
  run := (run_add h₁.run).trans h₂.run
  edges i := by rw [Nat.add_assoc, h₁.edges, h₂.edges, List.append_assoc]
  left := h₂.left

/-- One tick more. -/
theorem Delivers.tick {k : Nat} {bits : List Bool} {s t u : State} (h : Delivers k bits s t)
    (ht : tickStep t = .next u) : Delivers (k + 1) (bits ++ if !t.clk && u.clk then [u.dat] else []) s u := by
  have hstep : step t = .next u := (step_of_leftToTicks h.left).trans ht
  exact h.trans
    ⟨run_one hstep, fun j => by rw [Nat.add_comm, risingEdgeBits_succ hstep], leftToTicks_of_tickStep h.left ht⟩

/-! ### The two waits -/

section
variable {s : State} (h : leftToTicks s)
include h

/-- R106, R108: HOLD and LWAIT count DLY down with the pins as they are. -/
theorem Delivers.counting {j : Nat} (hp : s.ph = phHold ∨ s.ph = phLwait) (hj : j < s.dly) :
    Delivers j [] s { s with dly := s.dly - j, t := s.t + j } := by
  induction j with
  | zero => exact .zero h
  | succ j ih =>
    have hmore : 1 < s.dly - j := by omega
    simpa [Nat.sub_sub, Nat.add_assoc] using (ih (by omega)).tick (tickStep_of_counting hp hmore)

/-- R105, R106: from CLKHI the hold has counted `j` ticks; the clock rises unless it was high. -/
theorem Delivers.clkhi {j : Nat} (hp : s.ph = phClkhi) (hj : j < s.cfg.holdTicks) :
    Delivers (1 + j) (if s.clk = false then [s.dat] else []) s { s with
      clk := true
      oplog := s.oplog ++ [.c1]
      dly := s.cfg.holdTicks - j
      ph := phHold
      t := s.t + (1 + j) } := by
  have hrise := (Delivers.zero h).tick (tickStep_of_clkhi hp)
  simpa [Nat.add_assoc] using hrise.trans (.counting hrise.left (.inl rfl) hj)

/-- R107, R108: from LATCH the latch wait has counted `j` ticks. -/
theorem Delivers.latch {j : Nat} (hp : s.ph = phLatch) (hj : j < s.cfg.latchTicks) :
    Delivers (1 + j) [] s { s with
      clk := false
      oplog := s.oplog ++ [.c0]
      dly := s.cfg.latchTicks - j
      ph := phLwait
      t := s.t + (1 + j) } := by
  have hfall := (Delivers.zero h).tick (tickStep_of_latch hp)
  simpa [Nat.add_assoc] using hfall.trans (.counting hfall.left (.inr rfl) hj)

/-- R107, R108: a latch runs to its end. -/
theorem Delivers.wholeLatch (hp : s.ph = phLatch) (hticks : 1 ≤ s.cfg.latchTicks) :
    Delivers (s.cfg.latchTicks + 1) [] s { s with
      clk := false
      dly := 0
      ph := phIdle
      oplog := s.oplog ++ [.c0, .l s.cfg.latchTicks]
      t := s.t + (s.cfg.latchTicks + 1) } := by
  obtain ⟨n, hn⟩ := Nat.exists_eq_add_of_le hticks
  have hlast : s.cfg.latchTicks - n = 1 := by omega
  have hwait := Delivers.latch h hp (j := n) (by omega)
  simpa [hn, Nat.add_assoc] using hwait.tick (tickStep_of_waitOver rfl hlast)

/-- R106: the last tick of a hold leaves the pins, whatever BYP and BITC are, and goes to CLKLO or LATCH. -/
theorem run_holdOver (hp : s.ph = phHold) (hd : s.dly = 1) :
    ∃ t, leftToTicks t ∧ Sys2Proof.core.run 1 s = .next t ∧ t.clk = s.clk ∧ t.dat = s.dat ∧ t.t = s.t + 1
      ∧ (t.ph = phClklo ∨ t.ph = phLatch) := by
  have ht : tickStep s = .next (holdDone (countTick s) { countTick s with dly := 0 }) :=
    (tickStep_of_phase (i := .hold) (by rw [hp]; rfl)).trans (execHold_of_last (s := countTick s) hd)
  obtain ⟨hframe, hph⟩ := holdDone_frame (countTick s) { countTick s with dly := 0 }
  refine ⟨_, leftToTicks_of_tickStep h ht, ((Delivers.zero h).tick ht).run, ?_⟩
  rw [hframe]
  exact ⟨rfl, rfl, rfl, hph⟩

/-- R103, R107: CLKLO and LATCH lower the clock and leave the data level. -/
theorem run_clockFalls (hp : s.ph = phClklo ∨ s.ph = phLatch) :
    ∃ t, Sys2Proof.core.run 1 s = .next t ∧ t.clk = false ∧ t.dat = s.dat := by
  rcases hp with hp | hp
  · exact ⟨_, ((Delivers.zero h).tick (tickStep_of_clklo hp)).run, rfl, rfl⟩
  · exact ⟨_, ((Delivers.zero h).tick (tickStep_of_latch hp)).run, rfl, rfl⟩

/-- R105, R106: from CLKHI to the end of the hold. -/
theorem run_wholeHold (hp : s.ph = phClkhi) (hticks : 1 ≤ s.cfg.holdTicks) :
    ∃ t, leftToTicks t ∧ Sys2Proof.core.run (s.cfg.holdTicks + 1) s = .next t ∧ t.clk = true ∧ t.dat = s.dat
      ∧ t.t = s.t + (s.cfg.holdTicks + 1) ∧ (t.ph = phClklo ∨ t.ph = phLatch) := by
  obtain ⟨n, hn⟩ := Nat.exists_eq_add_of_le hticks
  have hlast : s.cfg.holdTicks - n = 1 := by omega
  have hhold := (Delivers.clkhi h hp (j := n) (by omega)).run
  obtain ⟨t, hleft, hrun, hclk, hdat, htime, hph⟩ := run_holdOver (s := { s with
      clk := true
      oplog := s.oplog ++ [.c1]
      dly := s.cfg.holdTicks - n
      ph := phHold
      t := s.t + (1 + n) }) h rfl hlast
  refine ⟨t, hleft, ?_, hclk, hdat, by rw [htime, hn, Nat.add_assoc], hph⟩
  rw [hn, run_add hhold, hrun]

end

/-- Settles O25: the waits of CLKHI and HOLD, then the last tick of the hold, then the phase after it. -/
theorem clockStaysHighThroughTheHold : Obligations.ClockStaysHighThroughTheHold := by
  unfold Obligations.ClockStaysHighThroughTheHold
  intro s hp hticks hm hs ha
  have h : leftToTicks s := ⟨hm, hs, ha⟩
  obtain ⟨t, hleft, hrun, hclk, hdat, htime, hph⟩ := run_wholeHold h hp hticks
  refine ⟨fun k hk hle => ?_, ?_⟩
  · rcases Nat.lt_or_eq_of_le hle with hlt | rfl
    · obtain ⟨j, rfl⟩ := Nat.exists_eq_add_of_le hk
      exact ⟨_, (Delivers.clkhi h hp (j := j) (by omega)).run, rfl, rfl, rfl⟩
    · exact ⟨t, hrun, hclk, hdat, htime⟩
  · obtain ⟨u, hfall, hlow, hsame⟩ := run_clockFalls hleft hph
    exact ⟨u, (run_add hrun).trans hfall, hlow, hsame.trans hdat⟩

/-- Settles O26: LATCH and the ticks of LWAIT. -/
theorem latchWaitRunsToItsEnd : Obligations.LatchWaitRunsToItsEnd := by
  unfold Obligations.LatchWaitRunsToItsEnd
  intro s hp hticks hm hs ha
  have h : leftToTicks s := ⟨hm, hs, ha⟩
  refine ⟨fun k hk hle => ?_, (Delivers.wholeLatch h hp hticks).run⟩
  obtain ⟨j, rfl⟩ := Nat.exists_eq_add_of_le hk
  exact ⟨_, (Delivers.latch h hp (j := j) (by omega)).run, rfl, rfl, rfl⟩

/-! ### A transmit -/

/-- Bits `n` down to 0 of a byte, in the order they leave the block (R44). -/
def bitsFrom (b : Byte) : Nat → List Bool
  | 0 => [b.getLsbD 0]
  | n + 1 => b.getLsbD (n + 1) :: bitsFrom b n

/-- From bit 7 down it is the whole byte. -/
theorem bitsFrom_seven (b : Byte) : bitsFrom b 7 = byteBits b := rfl

section
variable {s : State} (h : leftToTicks s) (hticks : 1 ≤ s.cfg.holdTicks)
include h hticks

/-- R103 to R106: one bit, up to the last tick of its hold: the one rising edge is CLKHI's, with the bit on the data
line. -/
theorem Delivers.bit {b : Bool} (hp : s.ph = phClklo) (hb : currentBit s = some b) :
    Delivers (2 + s.cfg.holdTicks) [b] s { s with
      clk := true
      dat := b
      oplog := s.oplog ++ [.c0, if b then .d1 else .d0, .c1]
      dly := 1
      ph := phHold
      t := s.t + (2 + s.cfg.holdTicks) } := by
  obtain ⟨n, hn⟩ := Nat.exists_eq_add_of_le hticks
  have hlast : s.cfg.holdTicks - n = 1 := by omega
  have hset := ((Delivers.zero h).tick (tickStep_of_clklo hp)).tick (tickStep_of_dset rfl hb)
  have hshort : n < s.cfg.holdTicks := by omega
  have hrise := hset.trans (.clkhi hset.left rfl hshort)
  have hcount : 1 + 1 + (1 + n) = 2 + s.cfg.holdTicks := by omega
  simpa [hlast, hcount, Nat.add_assoc] using hrise

/-- R106: the rest of a byte, from bit `n` down, and the move past it. -/
theorem Delivers.restOfByte (n : Nat) (hn : s.bitc.toNat = n) (hp : s.ph = phClklo) (hin : s.byp.toNat < frameLen s)
    (htx : s.byp.toNat < s.txlen.toNat) :
    Delivers ((n + 1) * (3 + s.cfg.holdTicks)) (bitsFrom (Memory.read s.fb s.byp.toNat) n) s { s with
      clk := true
      dat := (Memory.read s.fb s.byp.toNat).getLsbD 0
      oplog := s.oplog ++ (bitsFrom (Memory.read s.fb s.byp.toNat) n).flatMap (bitLog s.cfg)
      dly := 0
      byp := s.byp + 1
      bitc := 7
      ph := if s.byp.toNat + 1 < s.txlen.toNat then phClklo else phLatch
      t := s.t + (n + 1) * (3 + s.cfg.holdTicks) } := by
  induction n generalizing s with
  | zero =>
    have hzero : s.bitc = 0 := BitVec.eq_of_toNat_eq hn
    have hbit := Delivers.bit h hticks hp (currentBit_of_inside hin)
    have hcount : 2 + s.cfg.holdTicks + 1 = (0 + 1) * (3 + s.cfg.holdTicks) := by omega
    rw [← hcount]
    simpa [hn, bitsFrom, bitLog, Nat.add_assoc] using hbit.tick (tickStep_of_lastBit rfl rfl hzero htx)
  | succ n ih =>
    have hmore : s.bitc ≠ 0 := fun hzero => by simp [hzero] at hn
    have hpred : (s.bitc - 1).toNat = n := by
      have hsucc := toNat_pred_bitc s.bitc hmore
      omega
    have hbit := (Delivers.bit h hticks hp (currentBit_of_inside hin)).tick (tickStep_of_moreBits rfl rfl hmore)
    have hrest := hbit.trans (ih hbit.left hticks hpred rfl hin htx)
    have hcount : 2 + s.cfg.holdTicks + 1 + (n + 1) * (3 + s.cfg.holdTicks) = (n + 1 + 1) * (3 + s.cfg.holdTicks) := by
      ring
    rw [← hcount]
    simpa [hn, bitsFrom, bitLog, Nat.add_assoc] using hrest

/-- R106, R112: the frame from byte BYP on, to the latch; `r` bytes stand after this one. -/
theorem Delivers.restOfFrame (r : Nat) (hr : s.byp.toNat + (r + 1) = s.txlen.toNat) (hb : s.bitc = 7)
    (hp : s.ph = phClklo) (hin : s.txlen.toNat ≤ frameLen s) :
    Delivers ((r + 1) * (8 * (3 + s.cfg.holdTicks))) (sentBits (Memory.bytes s.fb s.byp.toNat (r + 1))) s { s with
      clk := true
      dat := (Memory.read s.fb (s.txlen.toNat - 1)).getLsbD 0
      oplog := s.oplog ++ (sentBits (Memory.bytes s.fb s.byp.toNat (r + 1))).flatMap (bitLog s.cfg)
      dly := 0
      byp := s.txlen
      bitc := 7
      ph := phLatch
      t := s.t + (r + 1) * (8 * (3 + s.cfg.holdTicks)) } := by
  induction r generalizing s with
  | zero =>
    have hlt : s.byp.toNat < s.txlen.toNat := by omega
    have hend : ¬s.byp.toNat + 1 < s.txlen.toNat := by omega
    have hlast : s.txlen.toNat - 1 = s.byp.toNat := by omega
    have hbyp : s.byp + 1 = s.txlen := BitVec.eq_of_toNat_eq (by rw [toNat_succ_of_lt hlt, hr])
    have hbyte := Delivers.restOfByte h hticks 7 (by rw [hb]; rfl) hp (by omega) hlt
    rw [if_neg hend, hbyp, bitsFrom_seven] at hbyte
    rw [hlast]
    simpa [sentBits, Memory.bytes] using hbyte
  | succ r ih =>
    have hmore : s.byp.toNat + 1 < s.txlen.toNat := by omega
    have hlt : s.byp.toNat < s.txlen.toNat := by omega
    have hnext : (s.byp + 1).toNat = s.byp.toNat + 1 := toNat_succ_of_lt hlt
    have hbyte := Delivers.restOfByte h hticks 7 (by rw [hb]; rfl) hp (by omega) hlt
    rw [if_pos hmore, bitsFrom_seven] at hbyte
    have hrest := hbyte.trans (ih hbyte.left hticks (by simp only [hnext]; omega) rfl rfl hin)
    have hcount : (7 + 1) * (3 + s.cfg.holdTicks) + (r + 1) * (8 * (3 + s.cfg.holdTicks)) =
        (r + 1 + 1) * (8 * (3 + s.cfg.holdTicks)) := by
      ring
    simp only [hnext, hcount] at hrest
    rw [Memory.bytes]
    simpa [sentBits, Nat.add_assoc, ← hcount] using hrest

end

/-- R109, R112, R113, R120: TRANSMIT(n), left to its ticks. -/
theorem Delivers.transmit {n : Word} {s : State} (h : leftToTicks s) (hhold : 1 ≤ s.cfg.holdTicks)
    (hlatch : 1 ≤ s.cfg.latchTicks) (hn : n.toNat ≤ frameLen s) :
    Delivers (transmitTicks s.cfg n.toNat) (sentBits (Memory.bytes s.fb 0 n.toNat)) (startTransmit s n) { s with
      ph := phIdle
      byp := n
      bitc := 7
      txlen := n
      dly := 0
      clk := false
      dat := if n = 0 then s.dat else (Memory.read s.fb (n.toNat - 1)).getLsbD 0
      oplog := s.oplog ++ transmitLog s.cfg (Memory.bytes s.fb 0 n.toNat)
      t := s.t + transmitTicks s.cfg n.toNat } := by
  have hstart : leftToTicks (startTransmit s n) := h
  by_cases h0 : n = 0
  · subst h0
    have hrun := Delivers.wholeLatch hstart rfl hlatch
    simpa [transmitTicks, transmitLog, sentBits, Memory.bytes, Nat.add_comm 1] using hrun
  · have hne : n.toNat ≠ 0 := fun e => h0 (BitVec.eq_of_toNat_eq e)
    obtain ⟨r, hr⟩ := Nat.exists_eq_add_one_of_ne_zero hne
    have hframe := Delivers.restOfFrame hstart hhold r (by simp [hr]) rfl (if_neg h0) hn
    have hrun := hframe.trans (.wholeLatch hframe.left rfl hlatch)
    have hcount : transmitTicks s.cfg n.toNat =
        (r + 1) * (8 * (3 + s.cfg.holdTicks)) + (s.cfg.latchTicks + 1) := by
      rw [transmitTicks, hr]
      ring
    rw [hcount, transmitLog, if_neg h0, hr]
    simpa [hr, Nat.add_assoc] using hrun

/-- Settles O20: the TRANSMIT's register writes, then its run. -/
theorem transmitPutsTheFrameOnThePins : Obligations.TransmitPutsTheFrameOnThePins := by
  unfold Obligations.TransmitPutsTheFrameOnThePins
  intro n s u hhold hlatch hn hm hs ha hu
  obtain rfl : startTransmit s n = u := Host.Outcome.next.inj hu
  exact (Delivers.transmit ⟨hm, hs, ha⟩ hhold hlatch hn).run

/-- Settles O21: the edges of the whole transmit, with no step left after it. -/
theorem risingEdgeReceiverGetsTheFrame : Obligations.RisingEdgeReceiverGetsTheFrame := by
  unfold Obligations.RisingEdgeReceiverGetsTheFrame
  intro n s u hhold hlatch hn hm hs ha hu
  obtain rfl : startTransmit s n = u := Host.Outcome.next.inj hu
  simpa [risingEdgeBits] using (Delivers.transmit ⟨hm, hs, ha⟩ hhold hlatch hn).edges 0

end Sys2Proof.Safety
end

section
/-! SUPPORT and PROOF. The WRITE command (spec/41_write.md): what each branch of R130 does, the frame a write-begin
leaves and a READ gives back, the run of an accepted WRITE to its answer, and one transmit per write-begin. -/

namespace Sys2Proof.Safety

open Sys2Proof.Machine

/-! ### The branches of R130 on an open device -/

section
variable {len : Word} {data : List Byte} {s : State} (he : s.ena = true)
include he

/-- R131. -/
theorem execWrite_of_misaligned (hm : misaligned len = true) :
    execWrite len data s = .next (raiseError s .rangeError) := by
  simp [execWrite, he, hm]

/-- R132. -/
theorem execWrite_of_tooLong (hm : misaligned len = false) (ht : tooLong s len = true) :
    execWrite len data s = .next (raiseError s .sizeError) := by
  simp [execWrite, he, hm, ht]

/-- R133: past the two length tests LOCK decides. -/
theorem execWrite_of_valid (hv : validLength s len = true) :
    execWrite len data s =
      if s.lock then if transmitReturned s then .next (writeEnd len s) else .next s
      else if s.copyOk then .next (writeBegin len data s) else .next (raiseError s .copyError) := by
  have hvalid : misaligned len = false ∧ tooLong s len = false := by simpa [validLength] using hv
  simp [execWrite, he, hvalid, stayBlocked, writeCopyFail]

/-- R134. -/
theorem execWrite_of_begin (hv : validLength s len = true) (hl : s.lock = false) (hc : s.copyOk = true) :
    execWrite len data s = .next (writeBegin len data s) := by
  simp [execWrite_of_valid he hv, hl, hc]

/-- R135. -/
theorem execWrite_of_copyFail (hv : validLength s len = true) (hl : s.lock = false) (hc : s.copyOk = false) :
    execWrite len data s = .next (raiseError s .copyError) := by
  simp [execWrite_of_valid he hv, hl, hc]

/-- R136. -/
theorem execWrite_of_returned (hv : validLength s len = true) (hret : transmitReturned s = true) :
    execWrite len data s = .next (writeEnd len s) := by
  simp [execWrite_of_valid he hv, (transmitReturned_eq_true.1 hret).1, hret]

end

/-- Settles O27: the alignment test comes before every other. -/
theorem misalignedWriteIsRangeError : Obligations.MisalignedWriteIsRangeError := by
  unfold Obligations.MisalignedWriteIsRangeError
  intro len data s he hmod
  exact execWrite_of_misaligned he (misaligned_eq_true.2 hmod)

/-- Settles O28: the length test comes before LOCK's; where it passes, no branch left answers SizeError. -/
theorem tooLongWriteIsSizeError : Obligations.TooLongWriteIsSizeError := by
  unfold Obligations.TooLongWriteIsSizeError
  intro len data s
  refine ⟨fun he hmod hlong => execWrite_of_tooLong he (misaligned_eq_false.2 hmod) (tooLong_eq_true.2 hlong),
    fun hle t ht => ?_⟩
  have hfits : tooLong s len = false := tooLong_eq_false.2 hle
  rcases (execWrite_next ht).2 with ⟨_, rfl⟩ | ⟨_, hlong, _⟩ | ⟨_, _, _, rfl⟩ | ⟨_, _, _, rfl⟩ | ⟨_, _, _, rfl⟩ |
    ⟨_, _, _, rfl⟩
  · simp [raiseError]
  · simp [hfits] at hlong
  · simp [writeEnd]
  · simp
  · simp
  · simp [raiseError]

/-- Settles O29: with the lock free a valid WRITE turns on `copy_ok`. -/
theorem failedCopyIsCopyError : Obligations.FailedCopyIsCopyError := by
  unfold Obligations.FailedCopyIsCopyError
  intro len data s he hl hc hmod hle
  exact execWrite_of_copyFail he (validLength_eq_true.2 ⟨hmod, hle⟩) hl hc

/-- Settles O31: the four conditions of R136 are those of the branch. -/
theorem writeEndReleasesAndAnswers : Obligations.WriteEndReleasesAndAnswers := by
  unfold Obligations.WriteEndReleasesAndAnswers
  intro len data s he hl hp ho hmod hle
  exact execWrite_of_returned he (validLength_eq_true.2 ⟨hmod, hle⟩) (transmitReturned_eq_true.2 ⟨hl, hp, ho⟩)

/-! ### The frame that write-begin leaves -/

/-- R133: a candidate of a valid length fits the frame. -/
theorem le_frameLen_of_validLength {s : State} {len : Word} (hv : validLength s len = true) :
    len.toNat ≤ frameLen s := by
  obtain ⟨hmod, hle⟩ := validLength_eq_true.1 hv
  simp only [frameLen, colorBytes]
  omega

/-- R134: "After this step FB = `data ++ zeros(3 * NLED - len)`". -/
theorem bytes_storeCandidate {s : State} {len : Word} {data : List Byte} (hl : data.length = len.toNat)
    (hle : len.toNat ≤ frameLen s) :
    Memory.bytes (storeCandidate s len data) 0 (frameLen s) =
      data ++ List.replicate (frameLen s - len.toNat) 0 := by
  refine List.ext_getElem (by simp [hl, hle]) fun i hi _ => ?_
  have hin : i < frameLen s := by simpa using hi
  simp only [Memory.bytes_eq_map, List.getElem_map, List.getElem_range, Nat.zero_add, read_storeCandidate s len data hl,
    hin, if_true, List.getElem_append, hl, List.getElem_replicate]
  by_cases hdata : i < len.toNat
  · simp [hdata, hl]
  · simp [hdata]

/-- R50: bytes outside the frame are not touched. -/
theorem read_storeCandidate_of_outside {s : State} {len : Word} {data : List Byte} (hl : data.length = len.toNat)
    (hle : len.toNat ≤ frameLen s) {a : Nat} (ha : frameLen s ≤ a) :
    Memory.read (storeCandidate s len data) a = Memory.read s.fb a := by
  rw [read_storeCandidate s len data hl, if_neg (by omega), if_neg (by omega)]

/-- The byte count of the transmit is the frame's length (R60). -/
theorem toNat_ofNat_frameLen {s : State} (h : frameLen s < 2 ^ 32) :
    (BitVec.ofNat 32 (frameLen s)).toNat = frameLen s := by
  simpa using Nat.mod_eq_of_lt h

/-- R134: the transmit has no byte exactly when the strip has no LED. -/
theorem ofNat_frameLen_eq_zero_iff {s : State} (h : frameLen s < 2 ^ 32) :
    BitVec.ofNat 32 (frameLen s) = 0 ↔ s.nled = 0 := by
  rw [← BitVec.toNat_inj, ← BitVec.toNat_inj, toNat_ofNat_frameLen h]
  simp [frameLen, colorBytes]

/-- Settles O30: write-begin's writes, and the frame read back byte by byte. -/
theorem writeBeginStoresAndStartsTheEncoder : Obligations.WriteBeginStoresAndStartsTheEncoder := by
  unfold Obligations.WriteBeginStoresAndStartsTheEncoder
  intro len data s he hl hc hlen hmod hle hlt
  have hv : validLength s len = true := validLength_eq_true.2 ⟨hmod, hle⟩
  have hfit : len.toNat ≤ frameLen s := le_frameLen_of_validLength hv
  refine ⟨_, execWrite_of_begin he hv hl hc, ?_, by simp [noStrobeStands], ?_, fun a ha => ?_⟩
  · simp only [writeBegin_eq len data s hlt, ofNat_frameLen_eq_zero_iff hlt]
    rfl
  · rw [writeBegin_fb]
    exact bytes_storeCandidate hlen hfit
  · rw [writeBegin_fb]
    exact read_storeCandidate_of_outside hlen hfit ha

/-- R150, R151: with the lock free a READ answers with the whole frame. -/
theorem execRead_of_free {s : State} (he : s.ena = true) (hl : s.lock = false) :
    execRead s = .next (readSnapshot s) := by
  simp [execRead, he, hl]

/-- Settles O33: the READ's snapshot is of the frame that write-begin stored. -/
theorem readReturnsWhatTheWriteStored : Obligations.ReadReturnsWhatTheWriteStored := by
  unfold Obligations.ReadReturnsWhatTheWriteStored
  intro len data s u v he hl hc hlen hmod hle hlt hu hfb hnled hve hvl
  have hv : validLength s len = true := validLength_eq_true.2 ⟨hmod, hle⟩
  obtain rfl : writeBegin len data s = u := Host.Outcome.next.inj ((execWrite_of_begin he hv hl hc).symm.trans hu)
  rw [writeBegin_fb] at hfb
  rw [writeBegin_nled] at hnled
  have hframeLen : frameLen v = frameLen s := by rw [frameLen, frameLen, hnled]
  have hcount : frameCount v = BitVec.ofNat 32 (3 * s.nled.toNat) := by
    rw [frameCount, hframeLen]
    exact narrowWord_of_lt hlt
  have hbytes : frameBytes v = data ++ List.replicate (3 * s.nled.toNat - len.toNat) 0 := by
    rw [frameBytes, hfb, hframeLen]
    exact bytes_storeCandidate hlen (le_frameLen_of_validLength hv)
  exact ⟨_, execRead_of_free hve hvl, by simp [readSnapshot, hcount, hbytes]⟩

/-! ### Ticks that the environment chose -/

/-- R106: the end of a hold reads no choice of the environment. -/
theorem holdDone_with_moves (s c : State) (ms : List Move) :
    holdDone { s with moves := ms } { c with moves := ms } = { holdDone s c with moves := ms } := by
  by_cases hb : s.bitc = 0
  · have heq : holdDone s c = _ := if_neg (not_not.2 hb)
    rw [heq]
    exact if_neg (not_not.2 hb)
  · have heq : holdDone s c = _ := if_pos hb
    rw [heq]
    exact if_pos hb

/-- R106. -/
theorem execHold_with_moves {s t : State} (h : execHold s = .next t) (ms : List Move) :
    execHold { s with moves := ms } = .next { t with moves := ms } := by
  injection h with h
  subst h
  refine congrArg Host.Outcome.next ?_
  by_cases hd : delayMinusOne s = 0
  · rw [if_pos hd]
    exact (if_pos hd).trans (holdDone_with_moves s (countDelay s) ms)
  · rw [if_neg hd]
    exact if_neg hd

/-- R108. -/
theorem execLwait_with_moves {s t : State} (h : execLwait s = .next t) (ms : List Move) :
    execLwait { s with moves := ms } = .next { t with moves := ms } := by
  injection h with h
  subst h
  refine congrArg Host.Outcome.next ?_
  by_cases hd : delayMinusOne s = 0
  · rw [if_pos hd]
    exact if_pos hd
  · rw [if_neg hd]
    exact if_neg hd

/-- R100: a tick reads no choice of the environment. -/
theorem tickStep_with_moves {s t : State} (ht : tickStep s = .next t) (ms : List Move) :
    tickStep { s with moves := ms } = .next { t with moves := ms } := by
  rcases tickStep_next ht with ⟨hp, rfl⟩ | ⟨hp, _⟩ | ⟨hp, ht⟩ | ⟨hp, _⟩ | ⟨hp, ht⟩ | ⟨hp, _⟩ | ⟨hp, ht⟩
  · exact tickStep_of_idle (s := { s with moves := ms }) hp
  · rw [eq_of_tickStep (tickStep_of_clklo hp) ht]
    exact tickStep_of_clklo (s := { s with moves := ms }) hp
  · obtain ⟨b, hb, rfl⟩ := execDset_next ht
    exact tickStep_of_dset (s := { s with moves := ms }) hp hb
  · rw [eq_of_tickStep (tickStep_of_clkhi hp) ht]
    exact tickStep_of_clkhi (s := { s with moves := ms }) hp
  · exact (tickStep_of_phase (s := { s with moves := ms }) (i := .hold) (by simp only [hp]; rfl)).trans
      (execHold_with_moves ht ms)
  · rw [eq_of_tickStep (tickStep_of_latch hp) ht]
    exact tickStep_of_latch (s := { s with moves := ms }) hp
  · exact (tickStep_of_phase (s := { s with moves := ms }) (i := .lwait) (by simp only [hp]; rfl)).trans
      (execLwait_with_moves ht ms)

/-- A run that answers next began with a step that did. -/
theorem exists_step_of_run_succ {k : Nat} {s t : State} (h : Sys2Proof.core.run (k + 1) s = .next t) :
    ∃ u, step s = .next u := by
  cases hs : Sys2Proof.core.step s with
  | next u => exact ⟨u, hs⟩
  | fault f => simp [Host.Core.run, hs] at h
  | refused why => simp [Host.Core.run, hs] at h

/-- Ticks that were chosen do what the machine left to its ticks does (R100; log 3). -/
theorem run_chosenTicks {k : Nat} {s t : State} (h : leftToTicks s) (hrun : Sys2Proof.core.run k s = .next t)
    (ms : List Move) :
    Sys2Proof.core.run k { s with moves := List.replicate k .tick ++ ms } = .next { t with moves := ms } := by
  induction k generalizing s with
  | zero =>
    obtain rfl : s = t := Host.Outcome.next.inj hrun
    rfl
  | succ k ih =>
    obtain ⟨u, hu⟩ := exists_step_of_run_succ hrun
    rw [run_succ hu] at hrun
    have htick : tickStep s = .next u := (step_of_leftToTicks h).symm.trans hu
    have hchosen : step { s with moves := List.replicate (k + 1) .tick ++ ms } =
        .next { u with moves := List.replicate k .tick ++ ms } :=
      (step_of_move (s := { s with moves := List.replicate (k + 1) .tick ++ ms }) h.2.2 h.2.1 rfl).trans
        (tickStep_with_moves htick _)
    rw [run_succ hchosen]
    exact ih (leftToTicks_of_tickStep h htick) hrun

/-- R109, R112, R113: TRANSMIT(n) over ticks that were chosen. -/
theorem run_chosenTransmit {n : Word} {s : State} {ms : List Move} (hs : noStrobeStands s = true) (ha : answerable s)
    (hhold : 1 ≤ s.cfg.holdTicks) (hlatch : 1 ≤ s.cfg.latchTicks) (hn : n.toNat ≤ frameLen s)
    (hm : s.moves = List.replicate (transmitTicks s.cfg n.toNat) .tick ++ ms) :
    Sys2Proof.core.run (transmitTicks s.cfg n.toNat) (startTransmit s n) = .next { s with
      moves := ms
      ph := phIdle
      byp := n
      bitc := 7
      txlen := n
      dly := 0
      clk := false
      dat := if n = 0 then s.dat else (Memory.read s.fb (n.toNat - 1)).getLsbD 0
      oplog := s.oplog ++ transmitLog s.cfg (Memory.bytes s.fb 0 n.toNat)
      t := s.t + transmitTicks s.cfg n.toNat } := by
  have hleft : leftToTicks { s with moves := [] } := ⟨rfl, hs, ha⟩
  have hrun := run_chosenTicks (s := startTransmit { s with moves := [] } n) hleft
    (Delivers.transmit hleft hhold hlatch hn).run ms
  rw [← hm] at hrun
  exact hrun

/-! ### The run of an accepted WRITE -/

theorem noStrobeStands_of_noStrobe {s : State} (h : s.strobe = noStrobe) : noStrobeStands s = true := by
  simp [noStrobeStands, h]

/-- Write-begin before its TRANSMIT: the lock taken for the port and the candidate stored (R134). -/
def storedLocked (len : Word) (data : List Byte) (s : State) : State :=
  { s with lock := true, owner := s.grant, fb := storeCandidate s len data, strobe := noStrobe }

theorem writeBegin_eq_startTransmit (len : Word) (data : List Byte) {s : State} (h : frameLen s < 2 ^ 32) :
    writeBegin len data s = startTransmit (storedLocked len data s) (BitVec.ofNat 32 (frameLen s)) :=
  writeBegin_eq len data s h

/-- R112, R113, R134: a write-begin and the ticks of its transmit; the stored frame goes out, and the port still holds
the lock. -/
theorem run_writeBegin {len : Word} {data : List Byte} {s : State} {ms : List Move} (ha : answerable s)
    (hhold : 1 ≤ s.cfg.holdTicks) (hlatch : 1 ≤ s.cfg.latchTicks) (hlt : frameLen s < 2 ^ 32)
    (hm : s.moves = List.replicate (transmitTicks s.cfg (frameLen s)) .tick ++ ms) :
    ∃ u, Sys2Proof.core.run (transmitTicks s.cfg (frameLen s)) (writeBegin len data s) = .next u
      ∧ u = { storedLocked len data s with
        moves := ms
        ph := phIdle
        byp := BitVec.ofNat 32 (frameLen s)
        bitc := 7
        txlen := BitVec.ofNat 32 (frameLen s)
        dly := 0
        clk := false
        dat := u.dat
        oplog := s.oplog ++ transmitLog s.cfg (Memory.bytes (storeCandidate s len data) 0 (frameLen s))
        t := s.t + transmitTicks s.cfg (frameLen s) } := by
  have hn := toNat_ofNat_frameLen hlt
  have hsend := run_chosenTransmit (n := BitVec.ofNat 32 (frameLen s)) (s := storedLocked len data s) (ms := ms)
    (noStrobeStands_of_noStrobe rfl) ha hhold hlatch hn.le (by rw [hn]; exact hm)
  rw [hn] at hsend
  rw [writeBegin_eq_startTransmit len data hlt]
  exact ⟨_, hsend, rfl⟩

section
variable {s : State} {p : Port} {r : Request} {len : Word} {data : List Byte} (he : s.ena = true)
  (ha : answerable s) (hr : pending s p = some r) (hd : decodeRequest r = .ok (.write len data))
  (hv : validLength s len = true)
include he ha hr hd hv

/-- R58, R134: the gate's step of a valid WRITE with the lock free. -/
theorem step_writeBegin {x : Bool} {ms : List Move} (hs : noStrobeStands s = true) (hl : s.lock = false)
    (hm : s.moves = .gate p x true :: ms) :
    step s = .next (writeBegin len data (selectPort { s with moves := ms } p x true)) :=
  calc step s = gateStep p x true { s with moves := ms } := step_of_move ha hs hm
    _ = exec (.write len data) (selectPort { s with moves := ms } p x true) := gateStep_of_pending _ _ hr hd
    _ = _ := execWrite_of_begin he hv hl rfl

/-- R58, R136: the gate's step of a WRITE whose transmit has returned. -/
theorem step_writeEnd {y z : Bool} {ms : List Move} (hs : noStrobeStands s = true) (hl : s.lock = true)
    (hp : s.ph = phIdle) (ho : s.owner = p) (hm : s.moves = .gate p y z :: ms) :
    step s = .next (writeEnd len (selectPort { s with moves := ms } p y z)) :=
  calc step s = gateStep p y z { s with moves := ms } := step_of_move ha hs hm
    _ = exec (.write len data) (selectPort { s with moves := ms } p y z) := gateStep_of_pending _ _ hr hd
    _ = _ := execWrite_of_returned he hv (transmitReturned_eq_true.2 ⟨hl, hp, ho⟩)

end

/-- Settles O34: write-begin, its transmit, then write-end at the same port. -/
theorem acceptedWriteRunsToItsAnswer : Obligations.AcceptedWriteRunsToItsAnswer := by
  unfold Obligations.AcceptedWriteRunsToItsAnswer
  intro s p r len data x y z h he hl ha hr hd hv hm
  obtain ⟨hhold, hlatch⟩ := one_le_ticks_of_ok h.cfgOk
  have hlen : data.length = len.toNat := by simpa [Instr.wf] using (decodeRequest_command hd).2
  have hstored := bytes_storeCandidate hlen (le_frameLen_of_validLength hv)
  have hbegin := step_writeBegin he ha hr hd hv h.strobeIdle hl hm
  obtain ⟨u, hsend, hu⟩ := run_writeBegin (len := len) (data := data) (s := selectPort { s with
    moves := List.replicate (transmitTicks s.cfg (frameLen s)) .tick ++ [.gate p y z] } p x true)
    ha hhold hlatch (h.frameLen_lt he) rfl
  have hend : step u = .next (writeEnd len (selectPort { u with moves := [] } p y z)) := by
    rw [hu]
    refine step_writeEnd ?_ ?_ ?_ hd ?_ (noStrobeStands_of_noStrobe rfl) rfl rfl rfl rfl
    · exact he
    · exact ha
    · exact hr
    · exact hv
  refine ⟨_, (run_succ hbegin).trans ((run_add hsend).trans (run_one hend)), rfl, ?_⟩
  rw [hu]
  refine ⟨rfl, he, rfl, by simp [writeEnd], rfl, hstored, ?_, rfl⟩
  rw [← hstored]
  rfl

/-! ### One transmit per write-begin -/

/-- A step adds one to the completed latch waits with the transmit in progress exactly when it takes the lock
(R139). -/
def countsTheLock (s t : State) : Prop :=
  latchCount t.oplog + inProgress t =
    latchCount s.oplog + inProgress s + (if s.lock = false ∧ t.lock = true then 1 else 0)

@[simp] theorem latchCount_append (es fs : List Event) : latchCount (es ++ fs) = latchCount es + latchCount fs := by
  induction es with
  | nil => simp [latchCount]
  | cons e es ih => cases e <;> simp [latchCount, ih, Nat.add_right_comm]

theorem inProgress_of_idle {s : State} (hp : s.ph = phIdle) : inProgress s = 0 := by
  simp [inProgress, transmitting, hp]

theorem inProgress_of_busy {s : State} (hp : s.ph ≠ phIdle) : inProgress s = 1 := by
  simpa [inProgress, transmitting] using hp

theorem inProgress_congr {s t : State} (hp : t.ph = s.ph) : inProgress t = inProgress s := by
  rw [inProgress, inProgress, transmitting, transmitting, hp]

/-- Where OPLOG and PH stay and the lock is not taken, nothing is counted. -/
theorem countsTheLock_of_same {s t : State} (hlog : t.oplog = s.oplog) (hp : t.ph = s.ph)
    (hl : s.lock = false → t.lock = false) : countsTheLock s t := by
  have hnot : ¬(s.lock = false ∧ t.lock = true) := fun ⟨hf, ht⟩ => by simp [hl hf] at ht
  rw [countsTheLock, hlog, inProgress_congr hp, if_neg hnot, Nat.add_zero]

theorem countsTheLock_respond (s : State) (st : Status) (v : Word) (d : List Byte) :
    countsTheLock s (respond s st v d) := countsTheLock_of_same rfl rfl id

/-- R134: a write-begin takes the lock and leaves IDLE. -/
theorem countsTheLock_writeBegin {s : State} (hp : s.ph = phIdle) (hl : s.lock = false) (len : Word)
    (data : List Byte) : countsTheLock s (writeBegin len data s) := by
  have hbusy : (writeBegin len data s).ph ≠ phIdle := by
    rw [writeBegin_ph]
    split <;> decide
  rw [countsTheLock, inProgress_of_idle hp, inProgress_of_busy hbusy, writeBegin_oplog,
    if_pos ⟨hl, writeBegin_lock len data s⟩]

/-- R166: an OPEN finds the lock free and the encoder idle, and leaves them so. -/
theorem countsTheLock_open {s : State} (hp : s.ph = phIdle) (n : Word) :
    countsTheLock s (respond (openRegisters n s) .ok 0 []) := countsTheLock_of_same rfl hp.symm fun _ => rfl

theorem countsTheLock_of_exec {i : Instr} {s t : State} (h : Inv s) (hi : i.isCommand = true)
    (ht : exec i s = .next t) : countsTheLock s t :=
  command_outcome (P := countsTheLock s) hi ht
    (opened := fun _ _ he _ => countsTheLock_open (h.closedAtRest he).2 _)
    (openFailed := fun _ => countsTheLock_respond s _ _ _)
    (rangeError := fun _ => countsTheLock_respond s _ _ _)
    (sizeError := fun _ => countsTheLock_respond s _ _ _)
    (ended := fun _ _ _ _ _ _ _ _ => countsTheLock_of_same rfl rfl fun _ => rfl)
    (begun := fun len data _ _ _ hl => countsTheLock_writeBegin (h.ph_of_free hl) hl len data)
    (copyError := fun _ _ => countsTheLock_respond s _ _ _)
    (blocked := fun _ _ => countsTheLock_of_same rfl rfl id)
    (snapshot := fun _ _ => countsTheLock_of_same rfl rfl id)
    (queried := fun _ => countsTheLock_respond s _ _ _)
    (closedAgain := fun _ => countsTheLock_respond s _ _ _)
    (closed := fun _ _ => countsTheLock_of_same rfl rfl id)

/-- A tick between two phases of a transmit logs no completed latch wait. -/
theorem countsTheLock_of_busy {s t : State} (hs : s.ph ≠ phIdle) (ht : t.ph ≠ phIdle) (hl : t.lock = s.lock)
    (hlog : latchCount t.oplog = latchCount s.oplog) : countsTheLock s t := by
  have hnot : ¬(s.lock = false ∧ t.lock = true) := fun ⟨hf, hh⟩ => by simp [hl, hf] at hh
  rw [countsTheLock, hlog, inProgress_of_busy hs, inProgress_of_busy ht, if_neg hnot]

/-- R106: a hold, over or not, stays in the transmit. -/
theorem countsTheLock_hold {s t : State} (hp : s.ph = phHold) (ht : execHold s = .next t) : countsTheLock s t := by
  injection ht with ht
  subst ht
  by_cases hd : delayMinusOne s = 0
  · obtain ⟨hframe, hph⟩ := holdDone_frame s (countDelay s)
    rw [if_pos hd]
    refine countsTheLock_of_busy (by simp [hp]) (by rcases hph with hph | hph <;> simp [hph]) (by rw [hframe]; rfl) ?_
    rw [hframe]
    simp [latchCount]
  · rw [if_neg hd]
    exact countsTheLock_of_same rfl hp.symm id

/-- R108: a latch wait that is over ends the transmit and is logged. -/
theorem countsTheLock_lwait {s t : State} (hp : s.ph = phLwait) (ht : execLwait s = .next t) : countsTheLock s t := by
  injection ht with ht
  subst ht
  by_cases hd : delayMinusOne s = 0
  · rw [if_pos hd, countsTheLock, inProgress_of_idle rfl, inProgress_of_busy (by simp [hp])]
    simp [latchCount]
  · rw [if_neg hd]
    exact countsTheLock_of_same rfl hp.symm id

theorem countsTheLock_tickStep {s t : State} (ht : tickStep s = .next t) : countsTheLock s t := by
  rcases tickStep_next ht with ⟨_, rfl⟩ | ⟨hp, _⟩ | ⟨hp, ht⟩ | ⟨hp, _⟩ | ⟨hp, ht⟩ | ⟨hp, _⟩ | ⟨hp, ht⟩
  · exact countsTheLock_of_same rfl rfl id
  · rw [eq_of_tickStep (tickStep_of_clklo hp) ht]
    exact countsTheLock_of_busy (by simp [hp]) (by simp) rfl (by simp [latchCount])
  · obtain ⟨b, -, rfl⟩ := execDset_next ht
    refine countsTheLock_of_busy (by simp [hp]) (by simp) rfl ?_
    cases b <;> simp [latchCount]
  · rw [eq_of_tickStep (tickStep_of_clkhi hp) ht]
    exact countsTheLock_of_busy (by simp [hp]) (by simp) rfl (by simp [latchCount])
  · exact countsTheLock_hold (s := countTick s) hp ht
  · rw [eq_of_tickStep (tickStep_of_latch hp) ht]
    exact countsTheLock_of_busy (by simp [hp]) (by simp) rfl (by simp [latchCount])
  · exact countsTheLock_lwait (s := countTick s) hp ht

/-- Settles O36, by the kinds of step: of the ticks the last of a latch wait moves one from the transmit in progress to
the log, and of the commands a write-begin starts one. -/
theorem oneTransmitPerAcceptedWrite : Obligations.OneTransmitPerAcceptedWrite := by
  unfold Obligations.OneTransmitPerAcceptedWrite
  intro s t h ht
  rcases (step_cases ht).2 with ⟨hs, _⟩ | ⟨_, _, ht⟩ | ⟨_, p, r, ms, _, rfl⟩ | ⟨_, p, x, y, ms, _, _, rfl⟩ |
    ⟨_, p, x, y, ms, r, i, _, _, _, hi, ht⟩
  · simp [h.strobeStart_eq_false] at hs
  · exact countsTheLock_tickStep (s := { s with moves := s.moves.tail }) ht
  · rw [submit_frame]
    exact countsTheLock_of_same rfl rfl id
  · exact countsTheLock_of_same rfl rfl id
  · have hgate : Inv (selectPort { s with moves := ms } p x y) := (h.after_moves ms).after_selectPort p x y
    exact countsTheLock_of_exec (s := selectPort { s with moves := ms } p x y) hgate hi ht

end Sys2Proof.Safety
end

section
/-! SUPPORT and PROOF. The READ and QUERY commands (spec/42_read_query.md): the snapshot of the frame and the answer
with the LED count. -/

namespace Sys2Proof.Safety

open Sys2Proof.Machine

/-! ### READ -/

/-- R41: the buffer in the order of its indices. -/
theorem frameBytes_eq_map (s : State) : frameBytes s = (List.range (frameLen s)).map (Memory.read s.fb) := by
  simp [frameBytes, Memory.bytes_eq_map]

/-- R151: the snapshot is one response with the buffer's length and bytes, `3 * NLED` fitting 32 bits. -/
theorem readSnapshot_eq {s : State} (h : frameLen s < 2 ^ 32) :
    readSnapshot s =
      respond s .ok (BitVec.ofNat 32 (frameLen s)) ((List.range (frameLen s)).map (Memory.read s.fb)) := by
  rw [readSnapshot, narrowDraws_of_lt h, frameCount, narrowWord_of_lt h, frameBytes_eq_map]

/-- Settles O37: with the lock free READ answers with the snapshot, which is one response. -/
theorem readAnswersTheWholeFrame : Obligations.ReadAnswersTheWholeFrame := by
  unfold Obligations.ReadAnswersTheWholeFrame
  intro s he hl hlt
  calc exec .read s = .next (readSnapshot s) := execRead_of_free he hl
    _ = _ := congrArg _ (readSnapshot_eq hlt)

/-! ### QUERY -/

/-- R155: on an open device QUERY answers at once; LOCK is not tested. -/
theorem execQuery_of_open {s : State} (he : s.ena = true) : execQuery s = .next (respond s .ok s.nled []) := by
  simp [execQuery, he]

/-- Settles O38: the one response of R155 says what is written. -/
theorem queryAnswersTheLedCount : Obligations.QueryAnswersTheLedCount := by
  unfold Obligations.QueryAnswersTheLedCount
  intro s he
  exact execQuery_of_open he

end Sys2Proof.Safety
end

section
/-! SUPPORT and PROOF. The OPEN and CLOSE commands (spec/43_lifecycle.md): the branches of R165 and R169, and the
commands that have no meaning while the device is open or closed (R168, R175). -/

namespace Sys2Proof.Safety

open Sys2Proof.Machine

/-! ### The commands without a meaning -/

/-- R168. -/
theorem execOpen_of_open {s : State} (he : s.ena = true) (cfgValue : Option Word) :
    execOpen cfgValue s = .refused .openWhileOpen := by
  simp [execOpen, he]

section
variable {s : State} (he : s.ena = false)
include he

/-- R175. -/
theorem execRead_of_closed : execRead s = .refused .closedDevice := by
  simp [execRead, he]

/-- R175. -/
theorem execQuery_of_closed : execQuery s = .refused .closedDevice := by
  simp [execQuery, he]

/-- R175: ENA is tested before the length. -/
theorem execWrite_of_closed (len : Word) (data : List Byte) : execWrite len data s = .refused .closedDevice := by
  simp [execWrite, he]

end

/-- Settles O6: in all four commands the test of ENA comes first. -/
theorem commandsWithoutMeaningAreRefused : Obligations.CommandsWithoutMeaningAreRefused := by
  unfold Obligations.CommandsWithoutMeaningAreRefused
  intro s
  exact ⟨fun he n => execOpen_of_open he n,
    fun he => ⟨execRead_of_closed he, execQuery_of_closed he, fun len data => execWrite_of_closed he len data⟩⟩

/-! ### OPEN on a closed device -/

/-- R165, R3: the count is the configuration value, 20 without one. -/
theorem openCount_eq {cfgValue : Option Word} {n : Word} (h : cfgValue = some n ∨ (cfgValue = none ∧ n = 20)) :
    openCount cfgValue = n := by
  rcases h with rfl | ⟨rfl, rfl⟩
  · rfl
  · rfl

/-- R165: both the pins and the room are needed. -/
theorem acquired_eq_true {s : State} {n : Word} :
    acquired s n = true ↔ s.pinsOk = true ∧ n.toNat ≤ s.cfg.maxLeds := by
  simp [acquired]

/-- R167: the device is not acquired when either is missing. -/
theorem acquired_eq_false {s : State} {n : Word} :
    acquired s n = false ↔ s.pinsOk = false ∨ s.cfg.maxLeds < n.toNat := by
  rw [Bool.eq_false_iff, ne_eq, acquired_eq_true, not_and_or, Bool.not_eq_true, not_le]

/-- R166. -/
theorem execOpen_of_acquired {s : State} {cfgValue : Option Word} (he : s.ena = false)
    (ha : acquired s (openCount cfgValue) = true) :
    execOpen cfgValue s = .next (respond (openRegisters (openCount cfgValue) s) .ok 0 []) := by
  simp [execOpen, he, ha]

/-- R167. -/
theorem execOpen_of_notAcquired {s : State} {cfgValue : Option Word} (he : s.ena = false)
    (ha : acquired s (openCount cfgValue) = false) :
    execOpen cfgValue s = .next (raiseError s .initError) := by
  simp [execOpen, he, ha]

/-- R15: the buffer that OPEN allocates reads as zeros, however long the frame is. -/
theorem bytes_nil (a n : Nat) : Memory.bytes [] a n = List.replicate n 0 := by
  simp [Memory.bytes_eq_map]

/-- Settles O40: OPEN writes the registers of R166 and answers; the frame it leaves lists no byte. -/
theorem openGivesAFreshDevice : Obligations.OpenGivesAFreshDevice := by
  unfold Obligations.OpenGivesAFreshDevice
  intro cfgValue n s hn he hpins hfits
  obtain rfl := openCount_eq hn
  exact ⟨_, execOpen_of_acquired he (acquired_eq_true.2 ⟨hpins, hfits⟩), rfl, bytes_nil 0 _⟩

/-- Settles O41: an error's response is all that is written. -/
theorem openFailureIsInitError : Obligations.OpenFailureIsInitError := by
  unfold Obligations.OpenFailureIsInitError
  intro cfgValue n s hn he hcause
  obtain rfl := openCount_eq hn
  exact execOpen_of_notAcquired he (acquired_eq_false.2 hcause)

/-! ### CLOSE -/

/-- R170. -/
theorem execClose_of_free {s : State} (he : s.ena = true) (hl : s.lock = false) :
    execClose s = .next (respond (closeRegisters s) .ok 0 []) := by
  simp [execClose, he, hl]

/-- R171: LOCK is not tested. -/
theorem execClose_of_closed {s : State} (he : s.ena = false) : execClose s = .next (respond s .ok 0 []) := by
  simp [execClose, he]

/-- Settles O42: with the lock free CLOSE writes the registers of R170 and answers. -/
theorem closeReleasesPinsAndBuffer : Obligations.CloseReleasesPinsAndBuffer := by
  unfold Obligations.CloseReleasesPinsAndBuffer
  intro s he hl
  exact ⟨_, execClose_of_free he hl, rfl⟩

/-- Settles O43: the one response of R171 says what is written. -/
theorem closeOnAClosedDeviceDoesNothing : Obligations.CloseOnAClosedDeviceDoesNothing := by
  unfold Obligations.CloseOnAClosedDeviceDoesNothing
  intro s he
  exact execClose_of_closed he

end Sys2Proof.Safety
end

section
/-! SUPPORT and PROOF. Errors and the other ports (spec/60_exceptions.md R194, R195, R200): what a command writes to
the requests and the answers. -/

namespace Sys2Proof.Safety

open Sys2Proof.Machine

/-! ### Requests and answers under a command -/

/-- What a command does to the requests and the answers (R77, R195): the ports the gate does not serve keep their
requests; and nothing is answered, or an error is raised and that is all, or the served port is answered OK. -/
def gateEffect (s t : State) : Prop :=
  (∀ q, q ≠ s.grant → pending t q = pending s q) ∧
    (t.answers = s.answers ∨ (∃ e, t = raiseError s e) ∨ ∃ a, t.answers = s.answers ++ [(s.grant, a)] ∧ a.st = .ok)

theorem pending_respond_of_ne {s : State} {q : Port} (hq : q ≠ s.grant) (st : Status) (v : Word) (d : List Byte) :
    pending (respond s st v d) q = pending s q := by
  rw [pending_respond, if_neg hq]

theorem gateEffect_raiseError (s : State) (e : Status) : gateEffect s (raiseError s e) :=
  ⟨fun _ hq => pending_respond_of_ne hq e 0 [], .inr (.inl ⟨e, rfl⟩)⟩

/-- An OK answer, whatever was written before it to other fields than the requests and the answers. -/
theorem gateEffect_respond_ok (s u : State) (hgrant : u.grant = s.grant) (hpend : u.pend = s.pend)
    (hanswers : u.answers = s.answers) (v : Word) (d : List Byte) : gateEffect s (respond u .ok v d) := by
  refine ⟨fun q hq => ?_, .inr (.inr ⟨{ st := .ok, value := v, data := d }, ?_, rfl⟩)⟩
  · rw [pending_respond_of_ne (hgrant ▸ hq), pending, pending, hpend]
  · rw [respond, hgrant, hanswers]

theorem gateEffect_of_exec {i : Instr} {s t : State} (hi : i.isCommand = true) (ht : exec i s = .next t) :
    gateEffect s t :=
  command_outcome (P := gateEffect s) hi ht
    (opened := fun n _ _ _ => gateEffect_respond_ok s (openRegisters (openCount n) s) rfl rfl rfl _ _)
    (openFailed := fun _ => gateEffect_raiseError s _)
    (rangeError := fun _ => gateEffect_raiseError s _)
    (sizeError := fun _ => gateEffect_raiseError s _)
    (ended := fun len _ _ _ _ _ _ _ => gateEffect_respond_ok s { s with lock := false } rfl rfl rfl len [])
    (begun := fun len data _ _ _ _ =>
      ⟨fun q _ => congrArg (kvGet q) (writeBegin_pend len data s), .inl (writeBegin_answers len data s)⟩)
    (copyError := fun _ _ => gateEffect_raiseError s _)
    (blocked := fun _ _ => ⟨fun _ _ => rfl, .inl rfl⟩)
    (snapshot := fun _ _ => gateEffect_respond_ok s { s with draws := narrowDraws s (frameLen s) } rfl rfl rfl _ _)
    (queried := fun _ => gateEffect_respond_ok s s rfl rfl rfl _ _)
    (closedAgain := fun _ => gateEffect_respond_ok s s rfl rfl rfl _ _)
    (closed := fun _ _ => gateEffect_respond_ok s (closeRegisters s) rfl rfl rfl _ _)

/-- Only a command at a port answers (R58, R77): any other step leaves the answers. -/
theorem answers_eq_or_gateEffect_of_step {s t : State} (ht : step s = .next t) :
    t.answers = s.answers ∨ ∃ p x y ms, gateEffect (selectPort { s with moves := ms } p x y) t := by
  rcases (step_cases ht).2 with ⟨_, rfl⟩ | ⟨_, _, ht⟩ | ⟨_, p, r, ms, _, rfl⟩ | ⟨_, p, x, y, ms, _, _, rfl⟩ |
    ⟨_, p, x, y, ms, r, i, _, _, _, hi, ht⟩
  · exact .inl rfl
  · exact .inl (by rw [(tickStep_frame ht).1])
  · exact .inl (by rw [submit_frame])
  · exact .inl rfl
  · exact .inr ⟨p, x, y, ms, gateEffect_of_exec hi ht⟩

/-! ### The claims -/

/-- Settles O48: an answer that is not OK is a raised error, whose one write is the response. -/
theorem errorsChangeNothingElse : Obligations.ErrorsChangeNothingElse := by
  unfold Obligations.ErrorsChangeNothingElse
  intro s t p r ht hadd herr
  have hanswered : t.answers ≠ s.answers := by simp [hadd]
  rcases answers_eq_or_gateEffect_of_step ht with hsame | ⟨p', x, y, ms, hothers, hsame | ⟨e, rfl⟩ | ⟨a, hok, hst⟩⟩
  · exact absurd hsame hanswered
  · exact absurd hsame hanswered
  · obtain ⟨rfl, rfl⟩ : p' = p ∧ { st := e, value := 0, data := [] } = r := by simpa [raiseError, respond] using hadd
    exact ⟨rfl, rfl, by simp [raiseError], hothers, rfl⟩
  · obtain ⟨-, rfl⟩ : p' = p ∧ a = r := by simpa [hok] using hadd
    exact absurd hst herr

/-- Settles O50: with nothing pending the gate step writes neither, and a command writes its own port's only. -/
theorem otherPortsAreNotDisturbed : Obligations.OtherPortsAreNotDisturbed := by
  unfold Obligations.OtherPortsAreNotDisturbed
  intro s t p x y ms hs hm ht
  rw [step_of_move (step_cases ht).1 hs hm] at ht
  rcases gateStep_next ht with ⟨_, rfl⟩ | ⟨r, i, _, hd, ht⟩
  · exact ⟨fun _ _ => rfl, [], by simp⟩
  · obtain ⟨hothers, hsame | ⟨e, rfl⟩ | ⟨a, hok, -⟩⟩ := gateEffect_of_exec (decodeRequest_command hd).1 ht
    · exact ⟨hothers, [], by simp [hsame]⟩
    · exact ⟨hothers, _, rfl, by simp⟩
    · exact ⟨hothers, _, hok, by simp⟩

end Sys2Proof.Safety
end

section
/-! PROOF. Power-on and rest (spec/70_reset_and_hazards.md R220, R245): what the registers hold at reset, and that
only time passes where nothing is asked for. -/

namespace Sys2Proof.Safety

open Sys2Proof.Machine

/-! ### At rest -/

theorem answerable_of_pend_nil {s : State} (hpend : s.pend = []) : answerable s := by
  simp [answerable, standingRefusal, hpend]

theorem atRest_iff {s : State} : atRest s = true ↔ s.pend = [] ∧ s.lock = false ∧ s.ph = phIdle := by
  simp [atRest, transmitting, and_assoc]

/-- Settles O52: with no request pending nothing is refused, so the step is a tick, and in IDLE a tick only counts. -/
theorem restOnlyCountsTime : Obligations.RestOnlyCountsTime := by
  unfold Obligations.RestOnlyCountsTime
  intro s hrest hmoves hstrobe
  obtain ⟨hpend, -, hidle⟩ := atRest_iff.1 hrest
  have hticks : ticksNext s = true := by simp [ticksNext, hmoves]
  have hsame : { s with moves := s.moves.tail } = s := by rw [hmoves, List.tail_nil, ← hmoves]
  rw [step_of_ticksNext (answerable_of_pend_nil hpend) hstrobe hticks, hsame, tickStep_of_idle hidle, countTick]

/-! ### Power-on -/

/-- Settles O53: reset is power-on with the reference parameters, and no parameter enters a register R220 names. -/
theorem powerOnRegisterValues : Obligations.PowerOnRegisterValues := by
  unfold Obligations.PowerOnRegisterValues
  intro s hs
  obtain ⟨c, rfl⟩ : ∃ c, s = State.powerOn c := by
    rcases hs with hreset | hpower
    · exact ⟨Config.reference, hreset⟩
    · exact hpower
  exact ⟨rfl, rfl, rfl, rfl, rfl, rfl, rfl, rfl, rfl, rfl, fun _ => rfl, rfl, rfl⟩

end Sys2Proof.Safety
end
